-- ==== Sys2Proof/Word.lean ====
section
/-! DEFINITION. The word types of the block's interfaces (00_scope.md R7, 30_encoding.md R70, R74). -/

namespace Sys2Proof

/-- A command word, `CMD[39:0]` (30_encoding.md R70). -/
abbrev CommandWord := BitVec 40

/-- A response word, `RSP[35:0]` (30_encoding.md R74). -/
abbrev ResponseWord := BitVec 36

/-- A register of the register space, one 32-bit word (10_state.md R37). -/
abbrev Word32 := BitVec 32

/-- A register address, 4 bits (00_scope.md R7). -/
abbrev RegAddr := BitVec 4

/-- An input or output sample, signed 16 bits in two's complement (00_scope.md R7). -/
abbrev Sample := BitVec 16

end Sys2Proof
end

