-- ==== Sys2Proof/Config.lean ====
section
/-! DEFINITION. The two open parameters of the hardware (00_scope.md R6, R8; 92_eei_decisions.md D7, D24).
Their ranges are carried by their types, so no ill-formed parameter can be built (93_implementation_defined.md V12, V13). -/

namespace Sys2Proof

/-- The parameters of one block: `BLOCK_LEN` (1 to 65535, held as `BLOCK_LEN - 1`) and the shape table
`TABLE` (257 entries, each 0 to 65536). -/
structure Params where
  /-- `BLOCK_LEN - 1`, 0 to 65534 (00_scope.md R6). -/
  blockLenPred : Fin 65535
  /-- `TABLE` (00_scope.md R8): index 0 to 256, entry 0 to 65536. -/
  table : Fin 257 → Fin 65537
deriving Inhabited

/-- `BLOCK_LEN`, the number of samples in one block (00_scope.md R6). -/
def Params.blockLen (P : Params) : Nat := P.blockLenPred.val + 1

/-- The named premise `TableEndpoints` (00_scope.md R8): not part of well-formedness. -/
abbrev Params.TableEndpoints (P : Params) : Prop :=
  (P.table 0).val = 0 ∧ (P.table 256).val = 65536

/-- The parameters of the hardware at hand. OPEN in the spec (D7, D24), so opaque here: nothing can evaluate
them, and whatever is proved holds for every `BLOCK_LEN` and every well-formed `TABLE` (log 4, log 5; safe). -/
opaque Config.params : Params

end Sys2Proof
end

