-- ==== Sys2Proof/Syntax.lean ====
section
/-! DEFINITION. The syntax of the machine: its six operations (spec/opcode_table.json, 30_encoding.md R75), the
registers of its register space (10_state.md R37), the causes of an illegal command (60_exceptions.md R181) and
the responses (30_encoding.md R74). -/

namespace Sys2Proof

/-- The six operations, one constructor per row of spec/opcode_table.json. Register addresses stay the 4-bit
field of the command: which of them are legal is `Instr.WellFormed`. -/
inductive Instr
  /-- `NOP` (43_config_and_system.md R170). -/
  | nop
  /-- `TRIG` (40_envelope_state_machine.md R101). -/
  | trig
  /-- `BSTART` (41_phase_accumulator_lut_interp.md R131). -/
  | bstart
  /-- `SAMP x`, with the 16-bit pattern of the input sample (41_phase_accumulator_lut_interp.md R132). -/
  | samp (x : Sample)
  /-- `CFGW reg, v` (43_config_and_system.md R171). -/
  | cfgw (a : RegAddr) (v : Word32)
  /-- `CFGR reg` (43_config_and_system.md R172). -/
  | cfgr (a : RegAddr)
deriving DecidableEq, Repr

/-- The thirteen registers of the register map (10_state.md R37); addresses 0x5 to 0x7 name none. -/
inductive Reg
  | attackSamples | holdSamples | decaySamples | forcedSamples | maxRetrig
  | status | remaining | phaseAcc | phaseInc | retrigCnt | gainMult | gainOff | blockPos
deriving DecidableEq, Repr

/-- Why a command is illegal (60_exceptions.md R181). -/
inductive IllegalCause
  /-- `ILL_OP`: the operation code is reserved. -/
  | illOp
  /-- `ILL_RSVD`: a must-be-zero field is not zero. -/
  | illRsvd
  /-- `ILL_ADDR`: the register address is reserved. -/
  | illAddr
  /-- `ILL_RO`: a write to a read-only register. -/
  | illRo
  /-- `ILL_NOBLK`: `SAMP` with no block open. -/
  | illNoBlk
  /-- `ILL_INBLK`: `BSTART` with a block open. -/
  | illInBlk
deriving DecidableEq, Repr

/-- The five kinds of response (30_encoding.md R74; 93_implementation_defined.md V8). -/
inductive Response
  /-- `ACK`. -/
  | ack
  /-- `BLK`: whether the block is to be rendered. -/
  | blk (active : Bool)
  /-- `SMP`: the output sample, and whether it was the last of its block. -/
  | smp (y : Sample) (last : Bool)
  /-- `RD`: the value of the register read. -/
  | rd (v : Word32)
  /-- `ILL`: why the command was illegal. -/
  | ill (cause : IllegalCause)
deriving DecidableEq, Repr

end Sys2Proof
end

