-- ==== Sys2Proof/WellFormed.lean ====
section
/-! DEFINITION. Which instruction terms are commands of the hardware: the address constraints of
spec/opcode_table.json and 30_encoding.md R75, R77. Every other field is fully used by its format. -/

namespace Sys2Proof

/-- `CFGW` takes an address in 0x0 to 0x4 and `CFGR` one outside 0x5 to 0x7 (30_encoding.md R75). -/
def Instr.wellFormed : Instr → Bool
  | .nop => true
  | .trig => true
  | .bstart => true
  | .samp _ => true
  | .cfgw a _ => decide (a.toNat ≤ 4)
  | .cfgr a => decide (a.toNat ≤ 4 ∨ 8 ≤ a.toNat)

/-- An instruction term that the decoder can produce. -/
abbrev Instr.WellFormed (i : Instr) : Prop := i.wellFormed = true

end Sys2Proof
end

