-- ==== Sys2Proof/Decode.lean ====
section
/-! DEFINITION. Command and response words (30_encoding.md): fields, the decoder, total on the 2^40 command words
and rejecting with the cause of R77, the encoder, and the response encoding of R74. -/

namespace Sys2Proof

/-! ## Fields of a command word (R70) -/

/-- `op = CMD[39:36]`. -/
def opField (w : CommandWord) : BitVec 4 := w.extractLsb' 36 4

/-- `addr = CMD[35:32]`. -/
def addrField (w : CommandWord) : RegAddr := w.extractLsb' 32 4

/-- `data = CMD[31:0]`. -/
def dataField (w : CommandWord) : Word32 := w.extractLsb' 0 32

/-- `data[31:16]`, must be zero in format S (R72). -/
def dataHighField (w : CommandWord) : BitVec 16 := w.extractLsb' 16 16

/-- `x16 = CMD[15:0]` (R72). -/
def sampleField (w : CommandWord) : Sample := w.extractLsb' 0 16

/-! ## Operation codes, causes, register addresses -/

/-- The six operation codes in use (R75). -/
inductive Op
  | nop | trig | bstart | samp | cfgw | cfgr
deriving DecidableEq, Repr

/-- The operation a code stands for; 0x6 to 0xF are reserved (R75). -/
def Op.ofCode (c : BitVec 4) : Option Op :=
  match c.toNat with
  | 0 => some .nop
  | 1 => some .trig
  | 2 => some .bstart
  | 3 => some .samp
  | 4 => some .cfgw
  | 5 => some .cfgr
  | _ => none

/-- The code of an operation (R75). -/
def Op.code : Op → BitVec 4
  | .nop => 0x0#4
  | .trig => 0x1#4
  | .bstart => 0x2#4
  | .samp => 0x3#4
  | .cfgw => 0x4#4
  | .cfgr => 0x5#4

/-- The cause code of an illegal command (60_exceptions.md R181). -/
def IllegalCause.code : IllegalCause → BitVec 3
  | .illOp => 1#3
  | .illRsvd => 2#3
  | .illAddr => 3#3
  | .illRo => 4#3
  | .illNoBlk => 5#3
  | .illInBlk => 6#3

/-- The cause a code stands for; 0 and 7 are never produced (60_exceptions.md R181). -/
def IllegalCause.ofCode (c : BitVec 3) : Option IllegalCause :=
  match c.toNat with
  | 1 => some .illOp
  | 2 => some .illRsvd
  | 3 => some .illAddr
  | 4 => some .illRo
  | 5 => some .illNoBlk
  | 6 => some .illInBlk
  | _ => none

/-- The register at an address of the register map; 0x5 to 0x7 hold none (10_state.md R37). -/
def Reg.ofAddr (a : RegAddr) : Option Reg :=
  match a.toNat with
  | 0x0 => some .attackSamples
  | 0x1 => some .holdSamples
  | 0x2 => some .decaySamples
  | 0x3 => some .forcedSamples
  | 0x4 => some .maxRetrig
  | 0x8 => some .status
  | 0x9 => some .remaining
  | 0xA => some .phaseAcc
  | 0xB => some .phaseInc
  | 0xC => some .retrigCnt
  | 0xD => some .gainMult
  | 0xE => some .gainOff
  | 0xF => some .blockPos
  | _ => none

/-- The address of a register (10_state.md R37). -/
def Reg.addr : Reg → RegAddr
  | .attackSamples => 0x0#4
  | .holdSamples => 0x1#4
  | .decaySamples => 0x2#4
  | .forcedSamples => 0x3#4
  | .maxRetrig => 0x4#4
  | .status => 0x8#4
  | .remaining => 0x9#4
  | .phaseAcc => 0xA#4
  | .phaseInc => 0xB#4
  | .retrigCnt => 0xC#4
  | .gainMult => 0xD#4
  | .gainOff => 0xE#4
  | .blockPos => 0xF#4

/-- The registers `CFGW` may not write (10_state.md R36, R37). -/
def Reg.readOnly : Reg → Bool
  | .attackSamples | .holdSamples | .decaySamples | .forcedSamples | .maxRetrig => false
  | .status | .remaining | .phaseAcc | .phaseInc | .retrigCnt | .gainMult | .gainOff | .blockPos => true

/-! ## The decoder (R77) -/

/-- Check 2 of R77: is a must-be-zero field of the operation's format not zero? Format Z (R71): `addr` and
`data`; format S (R72): `addr` and `data[31:16]`; format W (R73): none; format R (R73): `data`. -/
def reservedBitsSet : Op → CommandWord → Bool
  | .nop, w => addrField w != 0#4 || dataField w != 0#32
  | .trig, w => addrField w != 0#4 || dataField w != 0#32
  | .bstart, w => addrField w != 0#4 || dataField w != 0#32
  | .samp, w => addrField w != 0#4 || dataHighField w != 0#16
  | .cfgw, _ => false
  | .cfgr, w => dataField w != 0#32

/-- Checks 3 and 4 of R77: the cause for which the operation's register address is illegal, if it is. -/
def addressCause (op : Op) (a : RegAddr) : Option IllegalCause :=
  match op, Reg.ofAddr a with
  | .cfgw, none => some .illAddr
  | .cfgw, some r => if r.readOnly then some .illRo else none
  | .cfgr, none => some .illAddr
  | _, _ => none

/-- The operands of a legal operation (R76). -/
def assembleOperands : Op → CommandWord → Instr
  | .nop, _ => .nop
  | .trig, _ => .trig
  | .bstart, _ => .bstart
  | .samp, w => .samp (sampleField w)
  | .cfgw, w => .cfgw (addrField w) (dataField w)
  | .cfgr, w => .cfgr (addrField w)

/-- Decode a command word: the checks of R77 in their order, the first that fails naming the cause. -/
def decode (w : CommandWord) : Except IllegalCause Instr :=
  match Op.ofCode (opField w) with
  | none => .error .illOp
  | some op =>
    if reservedBitsSet op w then .error .illRsvd
    else
      match addressCause op (addrField w) with
      | some c => .error c
      | none => .ok (assembleOperands op w)

/-! ## The encoder (R70 to R73, R75) -/

/-- A command word from its three fields (R70). -/
def commandWord (op : Op) (addr : RegAddr) (data : Word32) : CommandWord :=
  op.code ++ addr ++ data

/-- The word of an instruction (R71 to R73). -/
def encode : Instr → CommandWord
  | .nop => commandWord .nop 0#4 0#32
  | .trig => commandWord .trig 0#4 0#32
  | .bstart => commandWord .bstart 0#4 0#32
  | .samp x => commandWord .samp 0#4 (x.setWidth 32)
  | .cfgw a v => commandWord .cfgw a v
  | .cfgr a => commandWord .cfgr a 0#32

/-! ## The opcode rows (R75): an independent reading of the same table, by match and mask -/

/-- One row of the opcode table: a word `w` selects it when `w AND mask = match`. -/
structure OpRow where
  mnemonic : String
  mask : CommandWord
  pattern : CommandWord
deriving DecidableEq, Repr

/-- The six rows of R75, as printed. -/
def opRow : Op → OpRow
  | .nop => { mnemonic := "NOP", mask := 0xFFFFFFFFFF#40, pattern := 0x0000000000#40 }
  | .trig => { mnemonic := "TRIG", mask := 0xFFFFFFFFFF#40, pattern := 0x1000000000#40 }
  | .bstart => { mnemonic := "BSTART", mask := 0xFFFFFFFFFF#40, pattern := 0x2000000000#40 }
  | .samp => { mnemonic := "SAMP", mask := 0xFFFFFF0000#40, pattern := 0x3000000000#40 }
  | .cfgw => { mnemonic := "CFGW", mask := 0xF000000000#40, pattern := 0x4000000000#40 }
  | .cfgr => { mnemonic := "CFGR", mask := 0xF0FFFFFFFF#40, pattern := 0x5000000000#40 }

/-- R75: a word selects a row when `w AND mask = match`. -/
abbrev OpRow.selectedBy (r : OpRow) (w : CommandWord) : Prop := w &&& r.mask = r.pattern

/-- The operation an instruction belongs to. -/
def Instr.op : Instr → Op
  | .nop => .nop
  | .trig => .trig
  | .bstart => .bstart
  | .samp _ => .samp
  | .cfgw _ _ => .cfgw
  | .cfgr _ => .cfgr

/-! ## Response words (R74) -/

/-- A response word from its kind and payload: `kind = RSP[35:32]`, `payload = RSP[31:0]` (R74). -/
def responseWord (kind : BitVec 4) (payload : Word32) : ResponseWord := kind ++ payload

/-- The payload of `SMP`: `[15:0]` the sample, `[16]` the last mark, the rest 0 (R74). -/
def samplePayload (y : Sample) (last : Bool) : Word32 :=
  0#15 ++ (BitVec.ofBool last ++ y)

/-- The 36-bit word of a response (R74; 93_implementation_defined.md V9). -/
def Response.word : Response → ResponseWord
  | .ack => responseWord 0x0#4 0#32
  | .blk active => responseWord 0x1#4 ((BitVec.ofBool active).setWidth 32)
  | .smp y last => responseWord 0x2#4 (samplePayload y last)
  | .rd v => responseWord 0x3#4 v
  | .ill c => responseWord 0xF#4 (c.code.setWidth 32)

/-- The response a word stands for: what the host reads on the response port. Kinds 0x4 to 0xE, payload bits that
R74 says are 0, and cause codes that R181 never produces stand for none. -/
def Response.ofWord (w : ResponseWord) : Option Response :=
  let payload : Word32 := w.extractLsb' 0 32
  match (w.extractLsb' 32 4).toNat with
  | 0x0 => if payload = 0#32 then some .ack else none
  | 0x1 => if payload.extractLsb' 1 31 = 0#31 then some (.blk (payload.getLsbD 0)) else none
  | 0x2 =>
    if payload.extractLsb' 17 15 = 0#15 then some (.smp (payload.extractLsb' 0 16) (payload.getLsbD 16)) else none
  | 0x3 => some (.rd payload)
  | 0xF =>
    if payload.extractLsb' 3 29 = 0#29 then (IllegalCause.ofCode (payload.extractLsb' 0 3)).map .ill else none
  | _ => none

/-! ## The host's question -/

/-- What the decoder reads from an instruction whose bits are `w`. A command is ONE word of 40 bits (R70, R80), so
the table's bit 0 is bit 0 of that word; bits from `nbits` up are 0, and a number with bits from 40 up is no
command (log 14). -/
def decodeTableWord (nbits w : Nat) : Option Instr :=
  let v := w % 2 ^ nbits
  if v < 2 ^ 40 then (decode (BitVec.ofNat 40 v)).toOption else none

end Sys2Proof
end

