-- ==== Sys2Proof/Machine/State.lean ====
section
/-! DEFINITION. The state of the block (10_state.md R20), its reset value (R42), the inputs the host presents, and
the reasons a step could stop. -/

namespace Sys2Proof.Machine

/-- The phase of the envelope (10_state.md R21). Five constructors: the codes 5 to 7 of the 3-bit field cannot be
expressed (92_eei_decisions.md D29; log 9). -/
inductive Phase
  | idle | attack | hold | decay | forced
deriving DecidableEq, Repr

/-- What the host presents at one command boundary (log 1). -/
inductive Input
  /-- A command word on the command port (00_scope.md R12). -/
  | command (w : CommandWord)
  /-- The RESET event alone (70_reset_and_hazards.md R200). -/
  | reset
  /-- RESET asserted together with a command word, or while that command is in progress: RESET wins
  (60_exceptions.md R184; 93_implementation_defined.md V14). -/
  | resetWith (w : CommandWord)
deriving DecidableEq, Repr

/-- The machine. The first seventeen fields are the complete architectural state of 10_state.md R20, in its groups;
`port` and `responses` are the model's own (log 1, log 2). -/
structure State where
  /-- The phase of the envelope (R21). -/
  state : Phase
  /-- Samples left in the current phase, unsigned (R22). -/
  remaining : Word32
  /-- The wrapping phase accumulator, unsigned (R23). -/
  phaseAccumulator : Word32
  /-- The accumulator's step, unsigned (R24). -/
  phaseIncrement : Word32
  /-- Automatic re-triggers left, two's complement (R25). -/
  retriggerCount : Word32
  /-- The multiplier of the current phase's transform, two's complement Q16.16 (R26). -/
  gainMultiplier : Word32
  /-- The offset of the current phase's transform, two's complement Q16.16 (R26). -/
  gainOffset : Word32
  /-- `ATTACK_SAMPLES`, address 0x0 (R30). -/
  attackSamples : Word32
  /-- `HOLD_SAMPLES`, address 0x1 (R31). -/
  holdSamples : Word32
  /-- `DECAY_SAMPLES`, address 0x2 (R32). -/
  decaySamples : Word32
  /-- `FORCED_SAMPLES`, address 0x3 (R33). -/
  forcedDecaySamples : Word32
  /-- `MAX_RETRIG`, address 0x4, two's complement (R34). -/
  maxRetriggers : Word32
  /-- A block is open (R28). -/
  inBlock : Bool
  /-- The rest of the open block is output as 0 (R28). -/
  tail : Bool
  /-- `SAMP`s already executed in the open block, 16 bits (R20, R28; log 8). -/
  blockPos : BitVec 16
  /-- An illegal command has been seen since reset (R29). -/
  err : Bool
  /-- The cause code of the first illegal command since reset (R29). -/
  errcode : BitVec 3
  /-- MODEL'S OWN: what the host presents next, oldest first (log 1). -/
  port : List Input
  /-- MODEL'S OWN: the response words produced so far, oldest first (log 2). -/
  responses : List ResponseWord
deriving DecidableEq, Repr

/-- Right after reset (10_state.md R42): IDLE, every register 0; nothing presented and nothing answered. -/
def State.reset : State where
  state := .idle
  remaining := 0#32
  phaseAccumulator := 0#32
  phaseIncrement := 0#32
  retriggerCount := 0#32
  gainMultiplier := 0#32
  gainOffset := 0#32
  attackSamples := 0#32
  holdSamples := 0#32
  decaySamples := 0#32
  forcedDecaySamples := 0#32
  maxRetriggers := 0#32
  inBlock := false
  tail := false
  blockPos := 0#16
  err := false
  errcode := 0#3
  port := []
  responses := []

/-- Why the machine stops with a fault: never. The only exceptional outcome of a command is `ILL`, after which the
hardware keeps working (60_exceptions.md R181), so this type has no constructor (log 13; safe). -/
inductive Fault : Type
deriving DecidableEq, Repr

/-- Why an instruction has no meaning in this model. -/
inductive Refusal
  /-- Raised by an arm of `exec` for an instruction that has no meaning yet; no arm raises it (safe). -/
  | notModelled (mnemonic : String)
deriving DecidableEq, Repr

end Sys2Proof.Machine
end

