-- ==== Sys2Proof/Machine/Operands.lean ====
section
/-! DEFINITION. Operand forms and the fixed-point datapath: 00_scope.md R10, 41_phase_accumulator_lut_interp.md R135
and R136, 42_linear_gain_scaler.md R160 to R164. Values are computed on unbounded integers and reduced where a rule
stores them (R10). -/

namespace Sys2Proof.Machine

/-! ## Notation (R10) -/

/-- `u32(v)`: the low 32 bits, as a register value (R10). -/
def u32 (v : Nat) : Word32 := BitVec.ofNat 32 v

/-- `s32(v)`: the 32-bit two's complement pattern congruent to `v` (R10). -/
def s32 (v : Int) : Word32 := BitVec.ofInt 32 v

/-- `s16(v)`: the 16-bit two's complement pattern congruent to `v` (R10). -/
def s16 (v : Int) : Sample := BitVec.ofInt 16 v

/-- `v >>a k = floor(v / 2^k)`, rounding toward minus infinity (R10). -/
def asr (v : Int) (k : Nat) : Int := v / (2 ^ k : Nat)

/-- `x = sext_16(x16)`: the input sample as an integer (30_encoding.md R76). -/
def sampleValue (x : Sample) : Int := x.toInt

/-! ## Gain levels and coefficients (R160, R161) -/

/-- The two gain levels (00_scope.md R13). -/
inductive Level
  | silence | full
deriving DecidableEq, Repr

/-- `SILENCE = 0`, `FULL = 65536`: Q16.16 (R160). -/
def Level.value : Level → Int
  | .silence => 0
  | .full => 65536

/-- `Coeffs(startLevel, endLevel)` on gain levels given as integers: the pair `(gainMultiplier, gainOffset)`
(R161). -/
def coeffs (startLevel endLevel : Int) : Word32 × Word32 :=
  (s32 (endLevel - startLevel), s32 startLevel)

/-! ## The phase increment (40_envelope_state_machine.md R103, R104) -/

/-- `phaseIncrement` for a duration `d`: no division for `d = 0`, else `u32(floor(2^32 / d))`; `d = 1` stores 0. -/
def phaseIncrementFor (d : Word32) : Word32 :=
  if d = 0#32 then 0#32 else u32 (2 ^ 32 / d.toNat)

/-! ## Table lookup and interpolation (R135, R136) -/

/-- `i = phaseAccumulator[31:24]`, 0 to 255 (R135). -/
def tableIndex (acc : Word32) : Fin 256 := (acc.extractLsb' 24 8).toFin

/-- `f = phaseAccumulator[23:8]`, 0 to 65535 (R135). -/
def blendWeight (acc : Word32) : Nat := (acc.extractLsb' 8 16).toNat

/-- `v0 = TABLE[i]` (R135). -/
def tableLow (P : Params) (acc : Word32) : Nat := (P.table (tableIndex acc).castSucc).val

/-- `v1 = TABLE[i + 1]`, the guard entry at `i = 255` (R135, R138). -/
def tableHigh (P : Params) (acc : Word32) : Nat := (P.table (tableIndex acc).succ).val

/-- The blend of two table entries by a weight: `(v0 * (65536 - f) + v1 * f) >>a 16` on non-negative integers
(R136). -/
def blend (v0 v1 f : Nat) : Nat := (v0 * (65536 - f) + v1 * f) / 2 ^ 16

/-- The curve value `c` at an accumulator value, Q1.16 (R136). -/
def curve (P : Params) (acc : Word32) : Nat :=
  blend (tableLow P acc) (tableHigh P acc) (blendWeight acc)

/-! ## Gain transform and output scaling (R162, R163) -/

/-- `g = ((gainMultiplier * c) >>a 16) + gainOffset`, on unbounded integers (R162). -/
def gain (multiplier offset : Word32) (c : Nat) : Int :=
  asr (multiplier.toInt * c) 16 + offset.toInt

/-- `y = s16((g * x) >>a 16)` (R163). -/
def scale (g : Int) (x : Sample) : Sample := s16 (asr (g * sampleValue x) 16)

end Sys2Proof.Machine
end

