-- ==== Sys2Proof/Machine/Flags.lean ====
section
/-! DEFINITION. The flags: there are no arithmetic condition codes (10_state.md R29); the flags are the block framing
(R28), the sticky error pair (R29) and their view `STATUS` (R35). -/

namespace Sys2Proof.Machine

/-- The 3-bit code of a phase (10_state.md R21). -/
def Phase.code : Phase → BitVec 3
  | .idle => 0#3
  | .attack => 1#3
  | .hold => 2#3
  | .decay => 3#3
  | .forced => 4#3

/-- `STATUS`: `errcode << 6 | err << 5 | tail << 4 | inBlock << 3 | state` (10_state.md R35). -/
def statusWord (s : State) : Word32 :=
  (s.errcode.setWidth 32 <<< 6) ||| ((BitVec.ofBool s.err).setWidth 32 <<< 5) |||
    ((BitVec.ofBool s.tail).setWidth 32 <<< 4) ||| ((BitVec.ofBool s.inBlock).setWidth 32 <<< 3) |||
    s.state.code.setWidth 32

/-- The sticky error pair after an illegal command: the first cause is latched (10_state.md R29, 60_exceptions.md
R181). -/
def recordError (c : IllegalCause) (s : State) : State :=
  { s with err := true, errcode := if s.err then s.errcode else c.code }

/-- `active`: the block is to be rendered when the envelope is not IDLE (41_phase_accumulator_lut_interp.md R131). -/
def blockActive (s : State) : Bool := decide (s.state ≠ .idle)

/-- The framing a legal `BSTART` leaves (R131): `inBlock <- a`, `tail <- 0`, `blockPos <- 0`. -/
def openBlock (s : State) : State :=
  { s with inBlock := blockActive s, tail := false, blockPos := 0#16 }

/-- `blockPos = BLOCK_LEN - 1`: this `SAMP` is the last of its block (R132, R139). -/
def isLastSample (P : Params) (s : State) : Bool := decide (s.blockPos.toNat = P.blockLen - 1)

/-- The framing after a `SAMP` (R132, R139): the last one closes the block, any other is counted. -/
def countSample (P : Params) (s : State) : State :=
  if isLastSample P s then { s with inBlock := false, tail := false, blockPos := 0#16 }
  else { s with blockPos := s.blockPos + 1#16 }

/-- `tail <- 1`: the envelope reached IDLE inside a block (R132, R140). -/
def startTail (s : State) : State := { s with tail := true }

end Sys2Proof.Machine
end

