-- ==== Sys2Proof/Machine/Ops.lean ====
section
/-! DEFINITION. The named operations: the ports, the illegal-command outcome (the block's only exceptional outcome;
there is no return from it, 60_exceptions.md R186), RESET, the register space, phase entry, phase transition, the
transition loop and the rendering of one sample. -/

namespace Sys2Proof.Machine

/-! ## Ports -/

/-- The next input the host presents and the state that has taken it; none when nothing is presented (log 1). -/
def fetch (s : State) : Option (Input × State) :=
  match s.port with
  | [] => none
  | i :: rest => some (i, { s with port := rest })

/-- Present a command word as the very next input (log 12). -/
def present (w : CommandWord) (s : State) : State := { s with port := .command w :: s.port }

/-- Answer a command: one response word, after every earlier one (30_encoding.md R74, 20_memory.md R58). -/
def respond (r : Response) (s : State) : State := { s with responses := s.responses ++ [r.word] }

/-! ## The illegal-command outcome and RESET -/

/-- `raise Illegal(code)` (60_exceptions.md R181): set the sticky pair, answer `ILL`, change nothing else. -/
def raiseIllegal (c : IllegalCause) (s : State) : State := respond (.ill c) (recordError c s)

/-- The RESET event (70_reset_and_hazards.md R200): every field of the record takes its reset value; no response.
What the host still presents and what has been answered stand (log 6). -/
def resetEvent (s : State) : State := { State.reset with port := s.port, responses := s.responses }

/-! ## The register space (20_memory.md R52) -/

/-- `RegRead`: the value of a register of the map, a view being computed at that moment (10_state.md R30 to R37). -/
def regRead (r : Reg) (s : State) : Word32 :=
  match r with
  | .attackSamples => s.attackSamples
  | .holdSamples => s.holdSamples
  | .decaySamples => s.decaySamples
  | .forcedSamples => s.forcedDecaySamples
  | .maxRetrig => s.maxRetriggers
  | .status => statusWord s
  | .remaining => s.remaining
  | .phaseAcc => s.phaseAccumulator
  | .phaseInc => s.phaseIncrement
  | .retrigCnt => s.retriggerCount
  | .gainMult => s.gainMultiplier
  | .gainOff => s.gainOffset
  | .blockPos => s.blockPos.setWidth 32

/-- `RegWrite` on addresses 0x0 to 0x4: the whole 32-bit register (R52). It is never applied to a read-only
register, and would leave it as it is. -/
def regWrite (r : Reg) (v : Word32) (s : State) : State :=
  match r with
  | .attackSamples => { s with attackSamples := v }
  | .holdSamples => { s with holdSamples := v }
  | .decaySamples => { s with decaySamples := v }
  | .forcedSamples => { s with forcedDecaySamples := v }
  | .maxRetrig => { s with maxRetriggers := v }
  | .status | .remaining | .phaseAcc | .phaseInc | .retrigCnt | .gainMult | .gainOff | .blockPos => s

/-! ## Phase entry and phase transition (40_envelope_state_machine.md) -/

/-- `EnterPhase(s, d, startLevel, endLevel)` (R103, R104). -/
def enterPhase (p : Phase) (d : Word32) (startLevel endLevel : Level) (s : State) : State :=
  { s with
    state := p
    remaining := d
    phaseAccumulator := 0#32
    phaseIncrement := phaseIncrementFor d
    gainMultiplier := (coeffs startLevel.value endLevel.value).1
    gainOffset := (coeffs startLevel.value endLevel.value).2 }

/-- Entry to ATTACK, with the duration of its register (R100). -/
def enterAttack (s : State) : State := enterPhase .attack s.attackSamples .silence .full s

/-- Entry to HOLD (R100, R106). -/
def enterHold (s : State) : State := enterPhase .hold s.holdSamples .full .full s

/-- Entry to DECAY (R100, R106, R107). -/
def enterDecay (s : State) : State := enterPhase .decay s.decaySamples .full .silence s

/-- Entry to FORCED (R100, R101). -/
def enterForced (s : State) : State := enterPhase .forced s.forcedDecaySamples .full .silence s

/-- Entry to IDLE writes `state` and nothing else (R110). -/
def enterIdle (s : State) : State := { s with state := .idle }

/-- `retriggerCount <- s32(old - 1)` (R108; log 16). -/
def countRetrigger (s : State) : State := { s with retriggerCount := s32 (s.retriggerCount.toInt - 1) }

/-- `Transition()` (R105): out of ATTACK (R106), HOLD (R107), DECAY (R108), FORCED (R109); nothing in IDLE. -/
def transition (s : State) : State :=
  match s.state with
  | .idle => s
  | .attack => if s.holdSamples.toNat > 0 then enterHold s else enterDecay s
  | .hold => enterDecay s
  | .decay => if s.retriggerCount.toInt > 0 then enterAttack (countRetrigger s) else enterIdle (countRetrigger s)
  | .forced => enterAttack s

/-- A transition is due: `state != IDLE and remaining = 0` (R105, R132). -/
def transitionDue (s : State) : Bool := decide (s.state ≠ .idle ∧ s.remaining = 0#32)

/-- At most `n` turns of `while state != IDLE and remaining = 0 do Transition()` (R132). -/
def settleWithin : Nat → State → State
  | 0, s => s
  | n + 1, s => if transitionDue s then settleWithin n (transition s) else s

/-- The bound on the number of turns: `2 * max(retriggerCount, 0) + 3` (R111; log 7). -/
def settleBound (s : State) : Nat := 2 * s.retriggerCount.toInt.toNat + 3

/-- The whole transition loop of one `SAMP` (R111, R132). -/
def settle (s : State) : State := settleWithin (settleBound s) s

/-! ## Rendering one sample (41_phase_accumulator_lut_interp.md R132) -/

/-- The output of `Render(x)`: steps 1 to 5, from the accumulator before its advance (R135, R136, R162, R163). -/
def renderOutput (P : Params) (x : Sample) (s : State) : Sample :=
  scale (gain s.gainMultiplier s.gainOffset (curve P s.phaseAccumulator)) x

/-- Step 6: advance the accumulator and count the sample (R137). -/
def advance (s : State) : State :=
  { s with phaseAccumulator := s.phaseAccumulator + s.phaseIncrement, remaining := s.remaining - 1#32 }

/-- The envelope's part of a `SAMP` in an open block: the output sample and the state before the block
bookkeeping (R132). -/
def processSample (P : Params) (x : Sample) (s : State) : Sample × State :=
  if s.tail then (0#16, s)
  else
    let t := settle s
    if t.state = .idle then (0#16, startTail t) else (renderOutput P x t, advance t)

end Sys2Proof.Machine
end

