-- ==== Sys2Proof/Machine/Envelope.lean ====
section
/-! DEFINITION. The trigger operation (40_envelope_state_machine.md section 2). -/

namespace Sys2Proof.Machine

/-- What `TRIG` does to the state before it answers (R101): restart ATTACK with a fresh count, enter FORCED, or
nothing while FORCED. -/
def trigger (s : State) : State :=
  if s.state = .idle ∨ s.forcedDecaySamples = 0#32 then
    { enterAttack s with retriggerCount := s.maxRetriggers }
  else if s.state = .attack ∨ s.state = .hold ∨ s.state = .decay then enterForced s
  else s

/-- `TRIG` (R101). -/
def execTrig (s : State) : Host.Outcome State Fault Refusal := .next (respond .ack (trigger s))

end Sys2Proof.Machine
end

