-- ==== Sys2Proof/Machine/Render.lean ====
section
/-! DEFINITION. The render operations `BSTART` and `SAMP` (41_phase_accumulator_lut_interp.md sections 2, 3, 6). -/

namespace Sys2Proof.Machine

/-- The state after `BSTART` (R131). -/
def blockStart (s : State) : State :=
  if s.inBlock then raiseIllegal .illInBlk s else respond (.blk (blockActive s)) (openBlock s)

/-- `BSTART` (R131). -/
def execBstart (s : State) : Host.Outcome State Fault Refusal := .next (blockStart s)

/-- The state after `SAMP x` on a block with parameters `P` (R132). -/
def sampleCommand (P : Params) (x : Sample) (s : State) : State :=
  if s.inBlock then
    let p := processSample P x s
    respond (.smp p.1 (isLastSample P p.2)) (countSample P p.2)
  else raiseIllegal .illNoBlk s

/-- `SAMP x` (R132), on the hardware at hand. -/
def execSamp (x : Sample) (s : State) : Host.Outcome State Fault Refusal := .next (sampleCommand Config.params x s)

end Sys2Proof.Machine
end

