-- ==== Sys2Proof/Machine/System.lean ====
section
/-! DEFINITION. `NOP`, `CFGW` and `CFGR` (43_config_and_system.md). -/

namespace Sys2Proof.Machine

/-- `NOP` (R170): answer, and nothing else. -/
def execNop (s : State) : Host.Outcome State Fault Refusal := .next (respond .ack s)

/-- `CFGW reg, v` (R171): reserved addresses and read-only registers are illegal; every 32-bit value is accepted
(log 10: the decoder refuses the illegal addresses first). -/
def execCfgw (a : RegAddr) (v : Word32) (s : State) : Host.Outcome State Fault Refusal :=
  match Reg.ofAddr a with
  | none => .next (raiseIllegal .illAddr s)
  | some r => if r.readOnly then .next (raiseIllegal .illRo s) else .next (respond .ack (regWrite r v s))

/-- `CFGR reg` (R172): reserved addresses are illegal; a read has no side effect. -/
def execCfgr (a : RegAddr) (s : State) : Host.Outcome State Fault Refusal :=
  match Reg.ofAddr a with
  | none => .next (raiseIllegal .illAddr s)
  | some r => .next (respond (.rd (regRead r s)) s)

end Sys2Proof.Machine
end

