-- ==== Sys2Proof/Machine/Dispatch.lean ====
section
/-! DEFINITION. One arm per operation of spec/opcode_table.json (30_encoding.md R75). -/

namespace Sys2Proof.Machine

def exec (i : Instr) (s : State) : Host.Outcome State Fault Refusal :=
  match i with
  | .nop => Sys2Proof.Machine.execNop s
  | .trig => Sys2Proof.Machine.execTrig s
  | .bstart => Sys2Proof.Machine.execBstart s
  | .samp x => Sys2Proof.Machine.execSamp x s
  | .cfgw a v => Sys2Proof.Machine.execCfgw a v s
  | .cfgr a => Sys2Proof.Machine.execCfgr a s

end Sys2Proof.Machine
end

