-- ==== Sys2Proof/Machine/Step.lean ====
section
/-! DEFINITION. One step: take the next input at a command boundary and execute it to completion (00_scope.md R12,
20_memory.md R58, 70_reset_and_hazards.md R200). -/

namespace Sys2Proof.Machine

/-- With nothing presented the block waits (log 3). A command word is decoded and executed, or answered `ILL` with
its decode cause (30_encoding.md R77, R78). RESET acts at the boundary, and wins over a command presented with it
(60_exceptions.md R184; log 6). -/
def step (s : State) : Host.Outcome State Fault Refusal :=
  match fetch s with
  | none => .next s
  | some (.command w, t) =>
    match decode w with
    | .ok i => exec i t
    | .error c => .next (raiseIllegal c t)
  | some (.reset, t) => .next (resetEvent t)
  | some (.resetWith _, t) => .next (resetEvent t)

/-- The state whose very next step takes the command word `w` (bits from `nbits` up are 0): the host presents it
ahead of anything else it presents (log 12). -/
def State.withFetchWord (s : State) (nbits w : Nat) : State := present (BitVec.ofNat 40 (w % 2 ^ nbits)) s

end Sys2Proof.Machine
end

