-- ==== Sys2Proof/Machine/Assembly.lean ====
section
/-! DEFINITION. The textual syntax of commands and responses and the pseudo-operations (30_encoding.md R81, R82).
Lines are lists of characters. No step of the block calls this file: it is the host's notation for command words.
What the table leaves open (separators, digits, the bounds of a hexadecimal literal, the forms of a register number,
the `0x` of `.word`) is the model's choice, log 15. -/

namespace Sys2Proof.Machine

/-! ## Numbers -/

/-- The value of a decimal digit. -/
def decimalDigit (c : Char) : Option Nat :=
  if '0'.toNat ≤ c.toNat ∧ c.toNat ≤ '9'.toNat then some (c.toNat - '0'.toNat) else none

/-- The value of a hexadecimal digit, upper or lower case. -/
def hexDigit (c : Char) : Option Nat :=
  if 'A'.toNat ≤ c.toNat ∧ c.toNat ≤ 'F'.toNat then some (c.toNat - 'A'.toNat + 10)
  else if 'a'.toNat ≤ c.toNat ∧ c.toNat ≤ 'f'.toNat then some (c.toNat - 'a'.toNat + 10)
  else decimalDigit c

/-- Read digits of a base, most significant first, onto the value so far. -/
def readDigits (base : Nat) (digit : Char → Option Nat) : List Char → Nat → Option Nat
  | [], n => some n
  | c :: cs, n =>
    match digit c with
    | none => none
    | some d => readDigits base digit cs (n * base + d)

/-- A literal with at least one digit. -/
def readNat (base : Nat) (digit : Char → Option Nat) : List Char → Option Nat
  | [] => none
  | c :: cs => readDigits base digit (c :: cs) 0

/-- The largest value of a hexadecimal literal of an operand, and the range of a decimal one (R81). -/
structure NumberRange where
  low : Int
  high : Int
  hexHigh : Nat
deriving DecidableEq, Repr

/-- `SAMP <x>`: decimal -32768 to 32767, hexadecimal 0x0000 to 0xFFFF (R81). -/
def sampleRange : NumberRange := { low := -32768, high := 32767, hexHigh := 0xFFFF }

/-- `CFGW <reg>, <v>`: decimal -2^31 to 2^32 - 1, or hexadecimal. DESIGN CHOICE (log 15): R81 gives
no bound for the hexadecimal literal; a value above 0xFFFFFFFF is refused, not reduced. -/
def valueRange : NumberRange := { low := -2147483648, high := 4294967295, hexHigh := 0xFFFFFFFF }

/-- A number operand within its range; leading zeros and `-0` are read (log 15). -/
def readNumber (r : NumberRange) : List Char → Option Int
  | '0' :: 'x' :: cs =>
    match readNat 16 hexDigit cs with
    | some n => if n ≤ r.hexHigh then some n else none
    | none => none
  | '-' :: cs =>
    match readNat 10 decimalDigit cs with
    | some n => if r.low ≤ -(n : Int) then some (-(n : Int)) else none
    | none => none
  | cs =>
    match readNat 10 decimalDigit cs with
    | some n => if (n : Int) ≤ r.high then some n else none
    | none => none

/-! ## Registers -/

/-- The name of a register in the map (10_state.md R37). -/
def regName : Reg → String
  | .attackSamples => "ATTACK_SAMPLES"
  | .holdSamples => "HOLD_SAMPLES"
  | .decaySamples => "DECAY_SAMPLES"
  | .forcedSamples => "FORCED_SAMPLES"
  | .maxRetrig => "MAX_RETRIG"
  | .status => "STATUS"
  | .remaining => "REMAINING"
  | .phaseAcc => "PHASE_ACC"
  | .phaseInc => "PHASE_INC"
  | .retrigCnt => "RETRIG_CNT"
  | .gainMult => "GAIN_MULT"
  | .gainOff => "GAIN_OFF"
  | .blockPos => "BLOCK_POS"

/-- The thirteen registers, in address order. -/
def allRegs : List Reg :=
  [.attackSamples, .holdSamples, .decaySamples, .forcedSamples, .maxRetrig, .status, .remaining, .phaseAcc,
    .phaseInc, .retrigCnt, .gainMult, .gainOff, .blockPos]

/-- `<reg>`: a register name of R37, or a number 0 to 15 (R81). DESIGN CHOICE (log 15): the number may also be a
hexadecimal literal `0x0` to `0xF` or `-0`, as in the other operands. -/
def readReg (cs : List Char) : Option RegAddr :=
  match allRegs.find? (fun r => (regName r).toList == cs) with
  | some r => some r.addr
  | none =>
    match readNumber { low := 0, high := 15, hexHigh := 15 } cs with
    | some n => some (BitVec.ofInt 4 n)
    | none => none

/-! ## Lines -/

/-- White space and the comma separate the words of a line; `;` starts a comment (R81). -/
def isSeparator (c : Char) : Bool := c == ' ' || c == '\t' || c == ','

/-- The line up to its comment. -/
def dropComment : List Char → List Char
  | [] => []
  | c :: cs => if c == ';' then [] else c :: dropComment cs

/-- The words of a line: the word being read (reversed), the characters to come. -/
def splitWords : List Char → List Char → List (List Char)
  | [], word => if word.isEmpty then [] else [word.reverse]
  | c :: cs, word =>
    if isSeparator c then
      (if word.isEmpty then splitWords cs [] else word.reverse :: splitWords cs [])
    else splitWords cs (c :: word)

/-- What one line asks of the host. -/
inductive HostLine
  /-- Commands to issue whatever the block answers. -/
  | commands (ws : List CommandWord)
  /-- `UPDATE` of one buffer: the only expansion that depends on a response (R82). -/
  | update (buffer : List Sample)
  /-- `UPDATE_CONST x`: `UPDATE` with every sample of the block equal to `x` (R82). -/
  | updateConst (x : Sample)
deriving DecidableEq, Repr

/-- The word of `SAMP <x>`: `0x3000000000 + (x mod 2^16)` (R81). -/
def sampWord (x : Int) : CommandWord := encode (.samp (BitVec.ofInt 16 x))

/-- The word of `CFGW <reg>, <v>`: `0x4000000000 + (a << 32) + (v mod 2^32)`, whatever the address (R81). -/
def cfgwWord (a : RegAddr) (v : Int) : CommandWord := encode (.cfgw a (BitVec.ofInt 32 v))

/-- The word of `CFGR <reg>`: `0x5000000000 + (a << 32)` (R81). -/
def cfgrWord (a : RegAddr) : CommandWord := encode (.cfgr a)

/-- `.word <hex40>`: the literal 40-bit word, with or without `0x` (R81; log 15). -/
def readWord40 (cs : List Char) : Option CommandWord :=
  let digits := match cs with
    | '0' :: 'x' :: rest => rest
    | _ => cs
  match readNat 16 hexDigit digits with
  | some n => if n < 2 ^ 40 then some (BitVec.ofNat 40 n) else none
  | none => none

/-- All of a list, or nothing. -/
def allSome {α : Type} : List (Option α) → Option (List α)
  | [] => some []
  | none :: _ => none
  | some a :: rest =>
    match allSome rest with
    | none => none
    | some as => some (a :: as)

/-- The commands of `SETUP a, h, d, f, m` (R82); the operands have the forms of a `CFGW` value (log 15). -/
def setupWords : List Int → Option (List CommandWord)
  | [a, h, d, f, m] =>
    some [cfgwWord Reg.attackSamples.addr a, cfgwWord Reg.holdSamples.addr h, cfgwWord Reg.decaySamples.addr d,
      cfgwWord Reg.forcedSamples.addr f, cfgwWord Reg.maxRetrig.addr m]
  | _ => none

/-- One line's words, its mnemonic first (R81, R82). A line with no word asks for nothing. -/
def parseWords (ws : List (List Char)) : Option HostLine :=
  match ws with
  | [] => some (.commands [])
  | m :: args =>
    if m == "NOP".toList && args.isEmpty then some (.commands [encode .nop])
    else if (m == "TRIG".toList || m == "NOTEON".toList) && args.isEmpty then some (.commands [encode .trig])
    else if m == "BSTART".toList && args.isEmpty then some (.commands [encode .bstart])
    else if m == "SKIP".toList && args.isEmpty then some (.commands [])
    else if m == "SAMP".toList then
      match args with
      | [x] => (readNumber sampleRange x).map fun n => .commands [sampWord n]
      | _ => none
    else if m == "CFGW".toList then
      match args with
      | [r, v] =>
        match readReg r, readNumber valueRange v with
        | some a, some n => some (.commands [cfgwWord a n])
        | _, _ => none
      | _ => none
    else if m == "CFGR".toList then
      match args with
      | [r] => (readReg r).map fun a => .commands [cfgrWord a]
      | _ => none
    else if m == ".word".toList then
      match args with
      | [w] => (readWord40 w).map fun v => .commands [v]
      | _ => none
    else if m == "SETUP".toList then
      match allSome (args.map (readNumber valueRange)) with
      | some ns => (setupWords ns).map .commands
      | none => none
    else if m == "UPDATE".toList then
      match allSome (args.map (readNumber sampleRange)) with
      | some ns => some (.update (ns.map (BitVec.ofInt 16)))
      | none => none
    else if m == "UPDATE_CONST".toList then
      match args with
      | [x] => (readNumber sampleRange x).map fun n => .updateConst (BitVec.ofInt 16 n)
      | _ => none
    else none

/-- One line of the syntax of R81 and R82. -/
def parseLine (line : List Char) : Option HostLine := parseWords (splitWords (dropComment line) [])

/-- The buffer of an `UPDATE`: it holds `BLOCK_LEN` samples (R82). -/
def HostLine.buffer (blockLen : Nat) : HostLine → Option (List Sample)
  | .commands _ => none
  | .update b => if b.length = blockLen then some b else none
  | .updateConst x => some (List.replicate blockLen x)

/-- The commands `UPDATE` issues, given whether `BSTART` answered `active = 1` (R82). -/
def expandUpdate (active : Bool) (buffer : List Sample) : List CommandWord :=
  encode .bstart :: if active then buffer.map fun x => encode (.samp x) else []

/-! ## Responses -/

/-- One hexadecimal digit, upper case as the spec prints them. -/
def hexChar (n : Nat) : Char := Char.ofNat (if n < 10 then '0'.toNat + n else 'A'.toNat + n - 10)

/-- The lowest `k` hexadecimal digits of a number, most significant first. -/
def hexDigits : Nat → Nat → List Char
  | 0, _ => []
  | k + 1, n => hexDigits k (n / 16) ++ [hexChar (n % 16)]

/-- The name of a cause (60_exceptions.md R181). -/
def causeName : IllegalCause → String
  | .illOp => "ILL_OP"
  | .illRsvd => "ILL_RSVD"
  | .illAddr => "ILL_ADDR"
  | .illRo => "ILL_RO"
  | .illNoBlk => "ILL_NOBLK"
  | .illInBlk => "ILL_INBLK"

/-- A bit as printed in a response. -/
def bitText (b : Bool) : String := if b then "1" else "0"

/-- A response as R81 writes it; `<hex32>` is eight upper-case digits after `0x`, as in R83 (log 15). -/
def responseText : Response → String
  | .ack => "ACK"
  | .blk a => "BLK active=" ++ bitText a
  | .smp y l => "SMP y=" ++ toString y.toInt ++ " last=" ++ bitText l
  | .rd v => "RD 0x" ++ String.ofList (hexDigits 8 v.toNat)
  | .ill c => "ILL " ++ causeName c

end Sys2Proof.Machine
end

