-- ==== Sys2Proof/Machine/BlockRender.lean ====
section
/-! DEFINITION. The host's side of one block: `update` over a buffer (41_phase_accumulator_lut_interp.md R130, R134;
20_memory.md R50). No step of the block calls this file: it says what the render path does with the operations. -/

namespace Sys2Proof.Machine

/-- What one scheduler tick leaves: the block's state, the host's buffer, and whether it goes downstream (R130). -/
structure Tick where
  state : State
  buffer : List Sample
  handedDownstream : Bool
deriving DecidableEq, Repr

/-- The last response word produced, as the host reads it. -/
def lastResponse (s : State) : Option Response :=
  match s.responses.getLast? with
  | none => none
  | some w => Response.ofWord w

/-- `y_i` of the last `SMP` response; the host writes the sample back unchanged if the block answered anything
else, which an active block never does (R130; log 19). -/
def writeBack (s : State) (x : Sample) : Sample :=
  match lastResponse s with
  | some (.smp y _) => y
  | _ => x

/-- One `SAMP` for each sample of the buffer, each output written back in place (R130). -/
def renderSamples (P : Params) : List Sample → State → List Sample × State
  | [], s => ([], s)
  | x :: xs, s =>
    let t := sampleCommand P x s
    let r := renderSamples P xs t
    (writeBack t x :: r.1, r.2)

/-- `update` with an available buffer: `BSTART`, then the `SAMP`s and the hand-over iff it answered `active = 1`
(R130). -/
def updateBlock (P : Params) (buffer : List Sample) (s : State) : Tick :=
  let t := blockStart s
  match lastResponse t with
  | some (.blk true) =>
    let r := renderSamples P buffer t
    { state := r.2, buffer := r.1, handedDownstream := true }
  | _ => { state := t, buffer := buffer, handedDownstream := false }

/-- `update` at a tick: with no buffer available no command is issued and nothing changes (R134). -/
def tick (P : Params) (buffer : Option (List Sample)) (s : State) : Tick :=
  match buffer with
  | none => { state := s, buffer := [], handedDownstream := false }
  | some b => updateBlock P b s

end Sys2Proof.Machine
end

