-- ==== Sys2Proof/Safety.lean ====
section
/-! DEFINITION. What counts as a safe state and a safe run, in the terms the statements use: the invariants of
10_state.md R39, the states a run can reach, and what an outside observer can tell apart. -/

namespace Sys2Proof.Machine

/-- Invariant 2 of R39: the coefficient pair is one of four, and each phase has its own. -/
def CoeffsMatchPhase (s : State) : Prop :=
  match s.state with
  | .idle => (s.gainMultiplier, s.gainOffset) ∈ [(s32 0, s32 0), (s32 65536, s32 0), (s32 0, s32 65536), (s32 (-65536), s32 65536)]
  | .attack => (s.gainMultiplier, s.gainOffset) = (s32 65536, s32 0)
  | .hold => (s.gainMultiplier, s.gainOffset) = (s32 0, s32 65536)
  | .decay => (s.gainMultiplier, s.gainOffset) = (s32 (-65536), s32 65536)
  | .forced => (s.gainMultiplier, s.gainOffset) = (s32 (-65536), s32 65536)

/-- Invariants 3, 4 and 5 of R39: an open block that is not in its tail has a running envelope, a tail stands only
in an open block, and the position stays below `BLOCK_LEN` and is 0 outside a block. -/
def FramingOk (P : Params) (s : State) : Prop :=
  (s.inBlock = true ∧ s.tail = false → s.state ≠ .idle) ∧
  (s.tail = true → s.inBlock = true) ∧
  s.blockPos.toNat < P.blockLen ∧
  (s.inBlock = false → s.blockPos = 0#16)

/-- Invariant 6 of R39: no cause without an error, and a cause of the table with one. -/
def ErrorPairOk (s : State) : Prop :=
  (s.err = false → s.errcode = 0#3) ∧ (s.err = true → 1 ≤ s.errcode.toNat ∧ s.errcode.toNat ≤ 6)

/-- Invariants 2 to 6 of R39 (invariant 1 is the type of `state`). -/
structure Inv (s : State) : Prop where
  coeffs : CoeffsMatchPhase s
  framing : FramingOk Config.params s
  errors : ErrorPairOk s

/-- Invariant 8 of R39, as a property of one state: in a phase, some duration `d` and some number `k` of samples
already rendered account for `remaining`, the increment and the accumulator. -/
def SweepOk (s : State) : Prop :=
  s.state = .idle ∨
    ∃ d : Word32, ∃ k : Nat, k ≤ d.toNat ∧ s.remaining.toNat = d.toNat - k ∧
      s.phaseIncrement = phaseIncrementFor d ∧ s.phaseAccumulator = u32 (k * (phaseIncrementFor d).toNat)

/-- The envelope is settled: no transition is due (40_envelope_state_machine.md R105). -/
def Settled (s : State) : Prop := s.state = .idle ∨ s.remaining ≠ 0#32

/-- `while state != IDLE and remaining = 0 do Transition()` as the rule writes it, with no bound: `u` is where the
loop leaves `s` (41_phase_accumulator_lut_interp.md R132). -/
inductive LoopLeaves : State → State → Prop
  | done (s : State) (h : Settled s) : LoopLeaves s s
  | turn (s u : State) (h : ¬ Settled s) (rest : LoopLeaves (transition s) u) : LoopLeaves s u

/-- A state of a run from reset, whatever the host presents (00_scope.md R15, 10_state.md R39). -/
inductive Reachable : State → Prop
  | start (inputs : List Input) : Reachable { State.reset with port := inputs }
  | step (s t : State) (h : Reachable s) (hs : Machine.step s = .next t) : Reachable t

/-- Two states that differ at most in the error pair and in what has been answered: the same envelope, block and
configuration, facing the same inputs (60_exceptions.md R181). -/
abbrev SameButErrors (s t : State) : Prop :=
  { s with err := t.err, errcode := t.errcode, responses := t.responses } = t

/-- Two states with the same seven working registers (10_state.md R20). -/
abbrev SameWorking (s t : State) : Prop :=
  s.state = t.state ∧ s.remaining = t.remaining ∧ s.phaseAccumulator = t.phaseAccumulator ∧
    s.phaseIncrement = t.phaseIncrement ∧ s.retriggerCount = t.retriggerCount ∧
    s.gainMultiplier = t.gainMultiplier ∧ s.gainOffset = t.gainOffset

/-- Two states with the same five configuration registers (10_state.md R20). -/
abbrev SameConfig (s t : State) : Prop :=
  s.attackSamples = t.attackSamples ∧ s.holdSamples = t.holdSamples ∧ s.decaySamples = t.decaySamples ∧
    s.forcedDecaySamples = t.forcedDecaySamples ∧ s.maxRetriggers = t.maxRetriggers

/-- Two states with the same block framing (10_state.md R20). -/
abbrev SameFraming (s t : State) : Prop :=
  s.inBlock = t.inBlock ∧ s.tail = t.tail ∧ s.blockPos = t.blockPos

/-- Two states with the same error pair (10_state.md R29). -/
abbrev SameErrors (s t : State) : Prop := s.err = t.err ∧ s.errcode = t.errcode

/-- The next input is RESET, alone or with a command (70_reset_and_hazards.md R200). -/
def resetIsNext (s : State) : Bool :=
  match s.port with
  | .reset :: _ => true
  | .resetWith _ :: _ => true
  | _ => false

end Sys2Proof.Machine
end

