-- ==== Sys2Proof/Certificates/Slice0/Obligations.lean ====
section
/-! DEFINITION. The statements for the provers. The helpers of `Sys2Proof.Claims` restate the rules of spec/ in plain
numbers, independently of the model's own operations, so that a statement says what the rule says and not what the
model happens to do. -/

open Sys2Proof Sys2Proof.Machine

namespace Sys2Proof.Claims

/-! ## The rules in numbers -/

/-- `op = CMD[39:36]` as a number (30_encoding.md R70). -/
def opNumber (w : CommandWord) : Nat := w.toNat / 2 ^ 36

/-- `addr = CMD[35:32]` as a number (30_encoding.md R70). -/
def addrNumber (w : CommandWord) : Nat := w.toNat / 2 ^ 32 % 16

/-- `data = CMD[31:0]` as a number (30_encoding.md R70). -/
def dataNumber (w : CommandWord) : Nat := w.toNat % 2 ^ 32

/-- The decode cause of a word by checks 1 to 4 of 30_encoding.md R77, in their order; 0 when all pass. -/
def decodeCause (w : CommandWord) : Nat :=
  if 6 ≤ opNumber w then 1
  else if opNumber w ≤ 2 ∧ (addrNumber w ≠ 0 ∨ dataNumber w ≠ 0) then 2
  else if opNumber w = 3 ∧ (addrNumber w ≠ 0 ∨ 65536 ≤ dataNumber w) then 2
  else if opNumber w = 5 ∧ dataNumber w ≠ 0 then 2
  else if 4 ≤ opNumber w ∧ 5 ≤ addrNumber w ∧ addrNumber w ≤ 7 then 3
  else if opNumber w = 4 ∧ 8 ≤ addrNumber w then 4
  else 0

/-- The state with one more response word (30_encoding.md R74). -/
def answered (word : Nat) (s : State) : State := { s with responses := s.responses ++ [BitVec.ofNat 36 word] }

/-- The outcome of an illegal command (60_exceptions.md R181). -/
def illegal (code : Nat) (s : State) : State :=
  { s with
    err := true
    errcode := if s.err = true then s.errcode else BitVec.ofNat 3 code
    responses := s.responses ++ [BitVec.ofNat 36 (0xF00000000 + code)] }

/-- The stored increment for a duration (40_envelope_state_machine.md R103, R104). -/
def increment (d : Word32) : Word32 :=
  if d.toNat = 0 then 0#32 else BitVec.ofNat 32 (4294967296 / d.toNat)

/-- The record after a phase entry with coefficients `(m, o)` (40_envelope_state_machine.md R103). -/
def entered (p : Phase) (d : Word32) (m o : Int) (s : State) : State :=
  { s with
    state := p
    remaining := d
    phaseAccumulator := 0#32
    phaseIncrement := increment d
    gainMultiplier := BitVec.ofInt 32 m
    gainOffset := BitVec.ofInt 32 o }

/-- `TABLE[i]` (00_scope.md R8). -/
def entry (i : Nat) : Nat := if h : i < 257 then (Config.params.table ⟨i, h⟩).val else 0

/-- The output of `Render(x)` from the registers of `s` (41_phase_accumulator_lut_interp.md R132). -/
def outputAt (s : State) (x : Sample) : Sample :=
  let i := s.phaseAccumulator.toNat / 2 ^ 24
  let f := s.phaseAccumulator.toNat / 2 ^ 8 % 2 ^ 16
  let c := (entry i * (65536 - f) + entry (i + 1) * f) / 65536
  let g := s.gainMultiplier.toInt * (c : Int) / 65536 + s.gainOffset.toInt
  BitVec.ofInt 16 (g * x.toInt / 65536)

/-- The registers after one rendered sample (41_phase_accumulator_lut_interp.md R137). -/
def advanced (s : State) : State :=
  { s with
    phaseAccumulator := BitVec.ofNat 32 (s.phaseAccumulator.toNat + s.phaseIncrement.toNat)
    remaining := BitVec.ofNat 32 (s.remaining.toNat - 1) }

/-- The block bookkeeping and the response of a `SAMP` with output `y` (41_phase_accumulator_lut_interp.md R132,
R139). -/
def counted (y : Sample) (s : State) : State :=
  if s.blockPos.toNat = Config.params.blockLen - 1 then
    answered (0x200010000 + y.toNat) { s with inBlock := false, tail := false, blockPos := 0#16 }
  else
    answered (0x200000000 + y.toNat) { s with blockPos := s.blockPos + 1#16 }

/-- The `STATUS` word (10_state.md R35). -/
def statusNumber (s : State) : Nat :=
  s.errcode.toNat * 64 + s.err.toNat * 32 + s.tail.toNat * 16 + s.inBlock.toNat * 8 +
    (match s.state with | .idle => 0 | .attack => 1 | .hold => 2 | .decay => 3 | .forced => 4)

/-- The register map: what `CFGR` answers at an address, none at the reserved ones (10_state.md R37). -/
def mapRead (a : Nat) (s : State) : Option Nat :=
  match a with
  | 0x0 => some s.attackSamples.toNat
  | 0x1 => some s.holdSamples.toNat
  | 0x2 => some s.decaySamples.toNat
  | 0x3 => some s.forcedDecaySamples.toNat
  | 0x4 => some s.maxRetriggers.toNat
  | 0x8 => some (statusNumber s)
  | 0x9 => some s.remaining.toNat
  | 0xA => some s.phaseAccumulator.toNat
  | 0xB => some s.phaseIncrement.toNat
  | 0xC => some s.retriggerCount.toNat
  | 0xD => some s.gainMultiplier.toNat
  | 0xE => some s.gainOffset.toNat
  | 0xF => some s.blockPos.toNat
  | _ => none

end Sys2Proof.Claims

open Sys2Proof.Claims

/-! ## Encoding -/

/-- The worked encodings of 30_encoding.md R83 (which the spec marks as derived), all of them. -/
def Obligations.WorkedEncodingsOfTheSpec : Prop :=
  encode .trig = 0x1000000000#40 ∧
  encode (.samp (BitVec.ofInt 16 32767)) = 0x3000007FFF#40 ∧
  encode (.samp (BitVec.ofInt 16 (-32768))) = 0x3000008000#40 ∧
  encode (.samp (BitVec.ofInt 16 (-1))) = 0x300000FFFF#40 ∧
  encode (.cfgw Reg.attackSamples.addr 10#32) = 0x400000000A#40 ∧
  encode (.cfgw Reg.maxRetrig.addr (BitVec.ofInt 32 (-1))) = 0x44FFFFFFFF#40 ∧
  encode (.cfgr Reg.status.addr) = 0x5800000000#40 ∧
  decode 0x1000000000#40 = .ok .trig ∧
  decode 0x3000007FFF#40 = .ok (.samp 0x7FFF#16) ∧
  decode 0x3000008000#40 = .ok (.samp 0x8000#16) ∧
  decode 0x300000FFFF#40 = .ok (.samp 0xFFFF#16) ∧
  decode 0x400000000A#40 = .ok (.cfgw 0x0#4 10#32) ∧
  decode 0x44FFFFFFFF#40 = .ok (.cfgw 0x4#4 0xFFFFFFFF#32) ∧
  decode 0x5800000000#40 = .ok (.cfgr 0x8#4) ∧
  Response.ack.word = 0x000000000#36 ∧
  (Response.blk true).word = 0x100000001#36 ∧
  (Response.smp (BitVec.ofInt 16 3276) false).word = 0x200000CCC#36 ∧
  (Response.smp (BitVec.ofInt 16 (-328)) false).word = 0x20000FEB8#36 ∧
  (Response.smp 0#16 true).word = 0x200010000#36 ∧
  (Response.rd 3#32).word = 0x300000003#36 ∧
  (Response.ill .illNoBlk).word = 0xF00000005#36 ∧
  decode 0x6000000000#40 = .error .illOp ∧
  decode 0x1000000001#40 = .error .illRsvd ∧
  decode 0x3000010000#40 = .error .illRsvd ∧
  decode 0x4500000000#40 = .error .illAddr ∧
  decode 0x4800000000#40 = .error .illRo ∧
  decode 0x5500000000#40 = .error .illAddr ∧
  decode 0x5000000001#40 = .error .illRsvd

/-- Decoding the word of any well-formed instruction gives the instruction back, with every operand at every value
(30_encoding.md R70 to R76). -/
def Obligations.DecodeOfEncodeIsIdentity : Prop :=
  ∀ i : Instr, i.WellFormed → decode (encode i) = .ok i

/-- Every word has at most one reading: a decoded instruction is well-formed and its word is the word decoded
(30_encoding.md R75 to R78). -/
def Obligations.EncodeOfDecodeIsIdentity : Prop :=
  ∀ (w : CommandWord) (i : Instr), decode w = .ok i → i.WellFormed ∧ encode i = w

/-- The numbers of legal words per operation, and the rest illegal (30_encoding.md R79, which the spec marks as
derived from R75 and R77). -/
def Obligations.LegalWordCounts : Prop :=
  Set.ncard {w : CommandWord | decode w = .ok .nop} = 1 ∧
  Set.ncard {w : CommandWord | decode w = .ok .trig} = 1 ∧
  Set.ncard {w : CommandWord | decode w = .ok .bstart} = 1 ∧
  Set.ncard {w : CommandWord | ∃ x, decode w = .ok (.samp x)} = 2 ^ 16 ∧
  Set.ncard {w : CommandWord | ∃ a v, decode w = .ok (.cfgw a v)} = 5 * 2 ^ 32 ∧
  Set.ncard {w : CommandWord | ∃ a, decode w = .ok (.cfgr a)} = 13 ∧
  Set.ncard {w : CommandWord | ∃ c, decode w = .error c} = 2 ^ 40 - (1 + 1 + 1 + 2 ^ 16 + 5 * 2 ^ 32 + 13)

/-- Decoding is total and its checks come in the order of 30_encoding.md R77, the first that fails naming the cause,
and a word that passes them all to the operation and operands it is made of; the two refusals that depend on the state come at execution. -/
def Obligations.DecodeChecksInTheirOrder : Prop :=
  (∀ w : CommandWord,
    (decodeCause w = 0 → ∃ i, decode w = .ok i ∧ i.WellFormed ∧ encode i = w) ∧
    (decodeCause w ≠ 0 → ∃ c, decode w = .error c ∧ c.code.toNat = decodeCause w)) ∧
  (∀ (x : Sample) (s : State), s.inBlock = false → exec (.samp x) s = .next (illegal 5 s)) ∧
  (∀ s : State, s.inBlock = true → exec .bstart s = .next (illegal 6 s))

/-- The opcode map of 30_encoding.md R75 by match and mask: which words are which operation, and that every other
word is illegal. -/
def Obligations.OpcodeRowsSelectTheOperations : Prop :=
  ∀ w : CommandWord,
    (decode w = .ok .nop ↔ w &&& 0xFFFFFFFFFF#40 = 0x0000000000#40) ∧
    (decode w = .ok .trig ↔ w &&& 0xFFFFFFFFFF#40 = 0x1000000000#40) ∧
    (decode w = .ok .bstart ↔ w &&& 0xFFFFFFFFFF#40 = 0x2000000000#40) ∧
    ((∃ x, decode w = .ok (.samp x)) ↔ w &&& 0xFFFFFF0000#40 = 0x3000000000#40) ∧
    ((∃ a v, decode w = .ok (.cfgw a v)) ↔
      w &&& 0xF000000000#40 = 0x4000000000#40 ∧ addrNumber w ≤ 4) ∧
    ((∃ a, decode w = .ok (.cfgr a)) ↔
      w &&& 0xF0FFFFFFFF#40 = 0x5000000000#40 ∧ ¬(5 ≤ addrNumber w ∧ addrNumber w ≤ 7)) ∧
    (6 ≤ opNumber w → decode w = .error .illOp)

/-- The operands of a decoded command are its fields: the sample sign-extended, the address and the data unchanged
(30_encoding.md section 4). -/
def Obligations.OperandsAreTheFields : Prop :=
  (∀ (w : CommandWord) (x : Sample), decode w = .ok (.samp x) →
    x.toInt = if w.toNat % 65536 < 32768 then ((w.toNat % 65536 : Nat) : Int) else ((w.toNat % 65536 : Nat) : Int) - 65536) ∧
  (∀ (w : CommandWord) (a : RegAddr) (v : Word32), decode w = .ok (.cfgw a v) →
    a.toNat = addrNumber w ∧ v.toNat = dataNumber w) ∧
  (∀ (w : CommandWord) (a : RegAddr), decode w = .ok (.cfgr a) → a.toNat = addrNumber w)

/-- The host reads every response back from its word, and no other word stands for a response (30_encoding.md section
2). -/
def Obligations.ResponseWordsReadBack : Prop :=
  (∀ r : Response, Response.ofWord r.word = some r) ∧
  (∀ (w : ResponseWord) (r : Response), Response.ofWord w = some r → r.word = w)

/-- The words of the assembler syntax: the numeric forms of 30_encoding.md section 6, and that they decode to the
operation written, with the operand value written. -/
def Obligations.AssembledWordsAreTheOperations : Prop :=
  (∀ x : Int, -32768 ≤ x → x ≤ 32767 →
    (sampWord x).toNat = 0x3000000000 + (x % 65536).toNat ∧
    ∃ v : Sample, decode (sampWord x) = .ok (.samp v) ∧ v.toInt = x) ∧
  (∀ (a : RegAddr) (v : Int), -2147483648 ≤ v → v ≤ 4294967295 →
    (cfgwWord a v).toNat = 0x4000000000 + a.toNat * 2 ^ 32 + (v % 4294967296).toNat ∧
    (a.toNat ≤ 4 → decode (cfgwWord a v) = .ok (.cfgw a (BitVec.ofInt 32 v)))) ∧
  (∀ a : RegAddr, (cfgrWord a).toNat = 0x5000000000 + a.toNat * 2 ^ 32 ∧
    ((a.toNat ≤ 4 ∨ 8 ≤ a.toNat) → decode (cfgrWord a) = .ok (.cfgr a)))

/-! ## The step, the response stream, RESET -/

/-- When the next input is the word of an instruction, a step takes that input and is the instruction's execution
(00_scope.md R12). -/
def Obligations.StepRunsTheDecodedCommand : Prop :=
  ∀ (s : State) (w : CommandWord) (rest : List Input) (i : Instr),
    s.port = .command w :: rest → decode w = .ok i → step s = exec i { s with port := rest }

/-- No state stops the machine: every step and every execution answers a next state. -/
def Obligations.NothingStopsTheMachine : Prop :=
  (∀ s : State, ∃ t, step s = .next t) ∧ (∀ (i : Instr) (s : State), ∃ t, exec i s = .next t)

/-- With nothing presented a step changes nothing. The model's reading (log 3) of "the block simply stays open
until it resumes" (70_reset_and_hazards.md section 4) and of a tick with no command, in which no state changes
(41_phase_accumulator_lut_interp.md section 4). -/
def Obligations.WaitsWhenNothingIsPresented : Prop :=
  ∀ s : State, s.port = [] → step s = .next s

/-- Every command produces exactly one response word, of the kind and payload of 30_encoding.md R74. -/
def Obligations.EveryCommandAnswersOnce : Prop :=
  ∀ (s : State) (w : CommandWord) (rest : List Input), s.port = .command w :: rest →
    ∃ (t : State) (v : Nat), step s = .next t ∧ t.responses = s.responses ++ [BitVec.ofNat 36 v] ∧
      if decodeCause w ≠ 0 then v = 0xF00000000 + decodeCause w
      else if opNumber w = 0 ∨ opNumber w = 1 ∨ opNumber w = 4 then v = 0
      else if opNumber w = 2 then
        v = if s.inBlock = true then 0xF00000006
          else if s.state = .idle then 0x100000000 else 0x100000001
      else if opNumber w = 3 then
        if s.inBlock = true then
          ∃ y : Sample, v = 0x200000000 + (if s.blockPos.toNat = Config.params.blockLen - 1 then 65536 else 0) + y.toNat
        else v = 0xF00000005
      else ∃ r : Word32, mapRead (addrNumber w) s = some r.toNat ∧ v = 0x300000000 + r.toNat

/-- A step takes exactly the oldest input, and what stands behind it cannot be seen by it (20_memory.md section 6). -/
def Obligations.OneInputPerStep : Prop :=
  ∀ (s t : State) (i : Input) (rest more : List Input), s.port = i :: rest → step s = .next t →
    t.port = rest ∧ step { s with port := i :: more } = .next { t with port := more }

/-- What has been answered does not feed back: a step is the same whatever was answered before (00_scope.md R15: the
response is a function of the state before the command and the command word). -/
def Obligations.ResponsesDoNotFeedBack : Prop :=
  ∀ (s t : State) (earlier : List ResponseWord), step s = .next t →
    step { s with responses := earlier ++ s.responses } = .next { t with responses := earlier ++ t.responses }

/-- An illegal command sets the sticky pair, answers its cause and changes nothing else (60_exceptions.md R181), for
every cause of its table. -/
def Obligations.IllegalCommandsOnlyReport : Prop :=
  ∀ (s : State) (w : CommandWord) (rest : List Input), s.port = .command w :: rest →
    (decodeCause w ≠ 0 → step s = .next (illegal (decodeCause w) { s with port := rest })) ∧
    (decodeCause w = 0 → opNumber w = 3 → s.inBlock = false → step s = .next (illegal 5 { s with port := rest })) ∧
    (decodeCause w = 0 → opNumber w = 2 → s.inBlock = true → step s = .next (illegal 6 { s with port := rest }))

/-- Two states that differ at most in the error pair and in what was answered stay so under every step, and an illegal
command leads to such a state, be it a word the decoder refuses, a `SAMP` with no block open or a `BSTART` inside a
block: the hardware keeps working as if it had not been sent (60_exceptions.md section 2). -/
def Obligations.ErrorsNeverDisturbTheEnvelope : Prop :=
  (∀ s t s' : State, SameButErrors s t → step s = .next s' → ∃ t', step t = .next t' ∧ SameButErrors s' t') ∧
  (∀ (s : State) (w : CommandWord) (rest : List Input), s.port = .command w :: rest →
    ((∃ c, decode w = .error c) ∨ (opNumber w = 3 ∧ s.inBlock = false) ∨ (opNumber w = 2 ∧ s.inBlock = true)) →
    ∃ t, step s = .next t ∧ SameButErrors { s with port := rest } t)

/-- No command clears the error pair or changes the latched cause; RESET does (60_exceptions.md R186). -/
def Obligations.ErrorsAreSticky : Prop :=
  ∀ s t : State, step s = .next t →
    (resetIsNext s = false → s.err = true → t.err = true ∧ t.errcode = s.errcode) ∧
    (resetIsNext s = true → t.err = false ∧ t.errcode = 0#3)

/-- The reset value of every field of the record (10_state.md R42). -/
def Obligations.ResetValues : Prop :=
  State.reset.state = .idle ∧ State.reset.remaining = 0#32 ∧ State.reset.phaseAccumulator = 0#32 ∧
  State.reset.phaseIncrement = 0#32 ∧ State.reset.retriggerCount = 0#32 ∧ State.reset.gainMultiplier = 0#32 ∧
  State.reset.gainOffset = 0#32 ∧ State.reset.attackSamples = 0#32 ∧ State.reset.holdSamples = 0#32 ∧
  State.reset.decaySamples = 0#32 ∧ State.reset.forcedDecaySamples = 0#32 ∧ State.reset.maxRetriggers = 0#32 ∧
  State.reset.inBlock = false ∧ State.reset.tail = false ∧ State.reset.blockPos = 0#16 ∧
  State.reset.err = false ∧ State.reset.errcode = 0#3

/-- RESET, alone or together with a command, sets every field of the record to its reset value, executes no command
and gives no response (70_reset_and_hazards.md R200). -/
def Obligations.ResetEventSetsEveryField : Prop :=
  ∀ (s : State) (rest : List Input), (s.port = .reset :: rest ∨ ∃ w, s.port = .resetWith w :: rest) →
    step s = .next
      { state := .idle, remaining := 0#32, phaseAccumulator := 0#32, phaseIncrement := 0#32,
        retriggerCount := 0#32, gainMultiplier := 0#32, gainOffset := 0#32, attackSamples := 0#32,
        holdSamples := 0#32, decaySamples := 0#32, forcedDecaySamples := 0#32, maxRetriggers := 0#32,
        inBlock := false, tail := false, blockPos := 0#16, err := false, errcode := 0#3,
        port := rest, responses := s.responses }

/-- The commands straight after reset (70_reset_and_hazards.md section 1): `BSTART` skips, `SAMP` is refused, every
legal `CFGR` answers 0, `TRIG` enters a zero-length ATTACK. -/
def Obligations.CommandsStraightAfterReset : Prop :=
  exec .bstart State.reset = .next (answered 0x100000000 State.reset) ∧
  (∀ x : Sample, exec (.samp x) State.reset = .next (illegal 5 State.reset)) ∧
  (∀ a : RegAddr, (a.toNat ≤ 4 ∨ 8 ≤ a.toNat) →
    exec (.cfgr a) State.reset = .next (answered 0x300000000 State.reset)) ∧
  exec .trig State.reset =
    .next (answered 0 { State.reset with state := .attack, gainMultiplier := 65536#32 })

/-! ## TRIG and phase entry -/

/-- `TRIG`: the three cases of 40_envelope_state_machine.md R101, in their order. -/
def Obligations.TrigThreeCases : Prop :=
  ∀ s : State,
    exec .trig s = .next (answered 0
      (if s.state = .idle ∨ s.forcedDecaySamples.toNat = 0 then
        { entered .attack s.attackSamples 65536 0 s with retriggerCount := s.maxRetriggers }
      else if s.state = .attack ∨ s.state = .hold ∨ s.state = .decay then
        entered .forced s.forcedDecaySamples (-65536) 65536 s
      else s))

/-- `TRIG` in IDLE forgets the envelope's history: two idle states that agree on everything but the working registers
and the answers so far lead to the same state but for those answers. -/
def Obligations.TrigInIdleForgetsHistory : Prop :=
  ∀ s t : State, s.state = .idle → t.state = .idle → SameConfig s t → SameFraming s t → SameErrors s t →
    s.port = t.port →
    ∃ u : State, exec .trig s = .next { u with responses := s.responses ++ [0#36] } ∧
      exec .trig t = .next { u with responses := t.responses ++ [0#36] }

/-- `EnterPhase` writes the six registers of 40_envelope_state_machine.md R103 and nothing else, with its examples of
the stored increment. -/
def Obligations.PhaseEntryWrites : Prop :=
  (∀ (p : Phase) (d : Word32) (a b : Level) (s : State),
    enterPhase p d a b s = entered p d (b.value - a.value) a.value s) ∧
  phaseIncrementFor 1#32 = 0#32 ∧
  phaseIncrementFor 2#32 = 0x80000000#32 ∧
  phaseIncrementFor 3#32 = 0x55555555#32 ∧
  phaseIncrementFor 5#32 = 0x33333333#32 ∧
  phaseIncrementFor 10#32 = 0x19999999#32 ∧
  phaseIncrementFor 256#32 = 0x01000000#32 ∧
  phaseIncrementFor 4294967295#32 = 1#32

/-- The coefficient pair of a range maps the curve's codomain bounds exactly onto its two levels, no other 32-bit pair
does, and the three ranges of the state machine have the pairs of 42_linear_gain_scaler.md R161. -/
def Obligations.CoeffsAreTheUniqueExactPair : Prop :=
  (∀ a b : Nat, a ≤ 65536 → b ≤ 65536 →
    (coeffs a b).1.toInt = b - a ∧ (coeffs a b).2.toInt = a ∧
    gain (coeffs a b).1 (coeffs a b).2 0 = a ∧ gain (coeffs a b).1 (coeffs a b).2 65536 = b ∧
    ∀ m o : Word32, gain m o 0 = a → gain m o 65536 = b → (m, o) = coeffs a b) ∧
  coeffs Level.silence.value Level.full.value = (0x00010000#32, 0#32) ∧
  coeffs Level.full.value Level.full.value = (0#32, 0x00010000#32) ∧
  coeffs Level.full.value Level.silence.value = (0xFFFF0000#32, 0x00010000#32)

/-- How the stored increment depends on the duration (40_envelope_state_machine.md section 3, 70_reset_and_hazards.md
section 4): the exact floor from 2 up, at least 1, below 256 for very long phases; and 0 for 0 and 1. -/
def Obligations.IncrementIsTheFlooredQuotient : Prop :=
  ∀ d : Word32,
    (d.toNat ≤ 1 → phaseIncrementFor d = 0#32) ∧
    (2 ≤ d.toNat →
      (phaseIncrementFor d).toNat * d.toNat ≤ 2 ^ 32 ∧ 2 ^ 32 < ((phaseIncrementFor d).toNat + 1) * d.toNat ∧
      1 ≤ (phaseIncrementFor d).toNat) ∧
    (2 ^ 24 < d.toNat → (phaseIncrementFor d).toNat < 256)

/-- The sweep of 41_phase_accumulator_lut_interp.md section 4: before the last sample of a phase the accumulator has not
wrapped and the table index has not fallen, and what it holds after the last sample. -/
def Obligations.SweepDoesNotWrapWithinAPhase : Prop :=
  ∀ d : Word32, 1 ≤ d.toNat →
    (∀ k : Nat, k < d.toNat → k * (phaseIncrementFor d).toNat < 2 ^ 32) ∧
    (∀ j k : Nat, j ≤ k → k < d.toNat →
      (tableIndex (u32 (j * (phaseIncrementFor d).toNat))).val ≤ (tableIndex (u32 (k * (phaseIncrementFor d).toNat))).val) ∧
    ((∃ k : Nat, d.toNat = 2 ^ k) → u32 (d.toNat * (phaseIncrementFor d).toNat) = 0#32) ∧
    ((¬ ∃ k : Nat, d.toNat = 2 ^ k) →
      (u32 (d.toNat * (phaseIncrementFor d).toNat)).toNat = 2 ^ 32 - 2 ^ 32 % d.toNat)

/-! ## Phase transitions -/

/-- A `SAMP` that finds ATTACK, HOLD or FORCED finished takes the transition of 40_envelope_state_machine.md R106, R107
or R109 first and then processes the sample in the phase entered. -/
def Obligations.SampLeavesAFinishedPhaseFirst : Prop :=
  ∀ (x : Sample) (s : State), s.inBlock = true → s.tail = false → s.remaining = 0#32 →
    (s.state = .attack → exec (.samp x) s = exec (.samp x)
      (if 0 < s.holdSamples.toNat then entered .hold s.holdSamples 0 65536 s
        else entered .decay s.decaySamples (-65536) 65536 s)) ∧
    (s.state = .hold → exec (.samp x) s = exec (.samp x) (entered .decay s.decaySamples (-65536) 65536 s)) ∧
    (s.state = .forced → exec (.samp x) s = exec (.samp x) (entered .attack s.attackSamples 65536 0 s))

/-- A `SAMP` that finds DECAY finished counts the re-trigger on both outcomes of 40_envelope_state_machine.md R108: with
a positive count it restarts ATTACK and processes the sample there, else it reaches IDLE, outputs 0 and opens the
tail. -/
def Obligations.SampLeavesAFinishedDecay : Prop :=
  ∀ (x : Sample) (s : State), s.inBlock = true → s.tail = false → s.remaining = 0#32 → s.state = .decay →
    (0 < s.retriggerCount.toInt → exec (.samp x) s = exec (.samp x)
      (entered .attack s.attackSamples 65536 0 { s with retriggerCount := BitVec.ofInt 32 (s.retriggerCount.toInt - 1) })) ∧
    (s.retriggerCount.toInt ≤ 0 → exec (.samp x) s = .next (counted 0#16
      { s with state := .idle, retriggerCount := BitVec.ofInt 32 (s.retriggerCount.toInt - 1), tail := true }))

/-- The fuel-bounded loop is the unbounded `while` of the rule: it ends settled from every state, more fuel changes
nothing, and it is the only place where the `while` can end (40_envelope_state_machine.md section 4). -/
def Obligations.TransitionLoopIsTheWhileLoop : Prop :=
  ∀ s : State,
    Settled (settle s) ∧ LoopLeaves s (settle s) ∧ (∀ u, LoopLeaves s u → u = settle s) ∧
    ∀ n : Nat, 2 * s.retriggerCount.toInt.toNat + 3 ≤ n → settleWithin n s = settle s

/-- With every phase of zero length the loop runs through to IDLE and leaves the count one below zero, or one below a
negative count (40_envelope_state_machine.md section 4). The count is the post-decrement reading, which the spec marks
as from general knowledge (log 16). -/
def Obligations.ZeroLengthPhasesFallThroughToIdle : Prop :=
  ∀ s : State, s.state ≠ .idle → s.remaining = 0#32 → s.attackSamples = 0#32 → s.holdSamples = 0#32 →
    s.decaySamples = 0#32 →
    (settle s).state = .idle ∧ (settle s).remaining = 0#32 ∧
    (settle s).retriggerCount =
      if 0 ≤ s.retriggerCount.toInt then BitVec.ofInt 32 (-1) else BitVec.ofInt 32 (s.retriggerCount.toInt - 1)

/-! ## BSTART and SAMP -/

/-- `BSTART` (41_phase_accumulator_lut_interp.md R131): illegal inside a block; else it opens a block iff the envelope
is not IDLE and touches nothing but the framing. -/
def Obligations.BstartOpensOrSkips : Prop :=
  ∀ s : State,
    (s.inBlock = true → exec .bstart s = .next (illegal 6 s)) ∧
    (s.inBlock = false → s.state = .idle → exec .bstart s =
      .next (answered 0x100000000 { s with inBlock := false, tail := false, blockPos := 0#16 })) ∧
    (s.inBlock = false → s.state ≠ .idle → exec .bstart s =
      .next (answered 0x100000001 { s with inBlock := true, tail := false, blockPos := 0#16 }))

/-- `SAMP` with no transition due renders one sample by the datapath of 41_phase_accumulator_lut_interp.md section 5 and
42_linear_gain_scaler.md sections 3 and 4, advances the envelope by one sample and counts it in the block. -/
def Obligations.SampRendersOneSample : Prop :=
  ∀ (x : Sample) (s : State), s.inBlock = true → s.tail = false → s.state ≠ .idle → s.remaining ≠ 0#32 →
    exec (.samp x) s = .next (counted (outputAt s x) (advanced s))

/-- `SAMP` is the pseudocode of 41_phase_accumulator_lut_interp.md R132, with its unbounded `while`: refused outside a
block, 0 in a tail, else where the loop leaves the envelope decides between the tail and a rendered sample. -/
def Obligations.SampFollowsItsPseudocode : Prop :=
  ∀ (x : Sample) (s : State),
    (s.inBlock = false → exec (.samp x) s = .next (illegal 5 s)) ∧
    (s.inBlock = true → s.tail = true → exec (.samp x) s = .next (counted 0#16 s)) ∧
    (s.inBlock = true → s.tail = false → ∃ u, LoopLeaves s u ∧
      exec (.samp x) s = .next
        (if u.state = .idle then counted 0#16 { u with tail := true }
          else counted (outputAt u x) (advanced u)))

/-- In a tail every `SAMP` answers 0 and leaves the envelope alone, and no command ends the tail but the last `SAMP` of
the block (41_phase_accumulator_lut_interp.md section 6). -/
def Obligations.TailLastsToTheEndOfTheBlock : Prop :=
  ∀ (i : Instr) (s t : State), s.inBlock = true → s.tail = true → exec i s = .next t →
    (∀ x, i = .samp x → SameWorking s t ∧ SameConfig s t ∧
      t.responses = s.responses ++
        [if s.blockPos.toNat = Config.params.blockLen - 1 then 0x200010000#36 else 0x200000000#36]) ∧
    (t.inBlock = true ∧ t.tail = true ∨
      (∃ x, i = .samp x) ∧ s.blockPos.toNat = Config.params.blockLen - 1 ∧ t.inBlock = false ∧ t.tail = false)

/-- A run of samples inside one phase and one block: as many rendered samples, each from its own accumulator value, as
`SAMP`s presented; the one that is the `BLOCK_LEN`-th says so and closes the block
(41_phase_accumulator_lut_interp.md sections 4 and 6). -/
def Obligations.SamplesInsideAPhaseRenderInOrder : Prop :=
  ∀ (xs : List Sample) (s : State) (rest : List Input),
    s.inBlock = true → s.tail = false → s.state ≠ .idle → xs.length ≤ s.remaining.toNat →
    s.blockPos.toNat < Config.params.blockLen → s.blockPos.toNat + xs.length ≤ Config.params.blockLen →
    s.port = xs.map (fun x => Input.command (encode (.samp x))) ++ rest →
    Sys2Proof.core.run xs.length s = .next
      { s with
        port := rest
        remaining := BitVec.ofNat 32 (s.remaining.toNat - xs.length)
        phaseAccumulator := u32 (s.phaseAccumulator.toNat + xs.length * s.phaseIncrement.toNat)
        inBlock := decide (s.blockPos.toNat + xs.length < Config.params.blockLen)
        blockPos :=
          if s.blockPos.toNat + xs.length < Config.params.blockLen
          then BitVec.ofNat 16 (s.blockPos.toNat + xs.length) else 0#16
        responses := s.responses ++ xs.mapIdx fun k x =>
          (Response.smp (outputAt
            { s with phaseAccumulator := u32 (s.phaseAccumulator.toNat + k * s.phaseIncrement.toNat) } x)
            (decide (s.blockPos.toNat + k + 1 = Config.params.blockLen))).word }

/-- The host's `update` over one buffer (41_phase_accumulator_lut_interp.md sections 1 and 6): outside a block, with a
buffer of `BLOCK_LEN` samples, it causes no illegal command, closes the block it opens, and hands the buffer downstream
iff the envelope was running. If it was, the commands are `BSTART` and one `SAMP` for each input sample in order, sample
`i` of the buffer becomes the output of the `i`-th `SMP` response, and the last response alone carries the `last` mark;
if it was not, the only command is `BSTART` and the buffer and the working registers stay. -/
def Obligations.UpdateRendersOneWholeBlock : Prop :=
  ∀ (P : Params) (buffer : List Sample) (s : State), s.inBlock = false → buffer.length = P.blockLen →
    let r := updateBlock P buffer s
    r.buffer.length = buffer.length ∧ r.state.inBlock = false ∧ r.state.tail = false ∧ r.state.blockPos = 0#16 ∧
    r.state.err = s.err ∧ r.state.errcode = s.errcode ∧
    (r.handedDownstream = true ↔ s.state ≠ .idle) ∧
    r.state.responses.length = s.responses.length + 1 + (if s.state = .idle then 0 else P.blockLen) ∧
    (s.state ≠ .idle →
      r.state = buffer.foldl (fun u x => sampleCommand P x u) (blockStart s) ∧
      r.state.responses = s.responses ++ (Response.blk true).word ::
        r.buffer.mapIdx fun i y => (Response.smp y (decide (i + 1 = P.blockLen))).word) ∧
    (s.state = .idle →
      r.state = blockStart s ∧ r.state.responses = s.responses ++ [(Response.blk false).word] ∧
      r.buffer = buffer ∧ SameWorking r.state s)

/-! ## The datapath -/

/-- The curve value lies between its two table entries and in 0 to 65536; a zero weight gives the lower entry; a rising
segment never reaches its upper entry (41_phase_accumulator_lut_interp.md section 5). -/
def Obligations.CurveStaysBetweenItsNeighbours : Prop :=
  ∀ (P : Params) (acc : Word32),
    min (tableLow P acc) (tableHigh P acc) ≤ curve P acc ∧ curve P acc ≤ max (tableLow P acc) (tableHigh P acc) ∧
    curve P acc ≤ 65536 ∧
    (blendWeight acc = 0 → curve P acc = tableLow P acc) ∧
    (tableLow P acc < tableHigh P acc → curve P acc < tableHigh P acc)

/-- The spec's remark on the blend (41_phase_accumulator_lut_interp.md section 5, marked derived) that the value of the
next entry is reached only when both entries are equal. It FAILS on falling segments: the floor of `v0 = 1, v1 = 0`
at weight 1 is 0, as the spec's own vector says. -/
def Obligations.BlendReachesTheNextEntryOnlyWhenFlat : Prop :=
  ∀ v0 v1 f : Nat, v0 ≤ 65536 → v1 ≤ 65536 → f < 65536 → blend v0 v1 f = v1 → v0 = v1

/-- The gain is the curve mapped onto the range of the phase, and stays in 0 to 65536 (42_linear_gain_scaler.md section
3), in every state whose coefficients are those of its phase. -/
def Obligations.GainIsTheCurveMappedOntoThePhase : Prop :=
  ∀ (P : Params) (s : State), CoeffsMatchPhase s →
    (s.state = .attack → gain s.gainMultiplier s.gainOffset (curve P s.phaseAccumulator) = curve P s.phaseAccumulator) ∧
    (s.state = .hold → gain s.gainMultiplier s.gainOffset (curve P s.phaseAccumulator) = 65536) ∧
    (s.state = .decay ∨ s.state = .forced →
      gain s.gainMultiplier s.gainOffset (curve P s.phaseAccumulator) = 65536 - (curve P s.phaseAccumulator : Int)) ∧
    0 ≤ gain s.gainMultiplier s.gainOffset (curve P s.phaseAccumulator) ∧
    gain s.gainMultiplier s.gainOffset (curve P s.phaseAccumulator) ≤ 65536

/-- Output scaling (42_linear_gain_scaler.md section 4): for a gain of 0 to 65536 the output is the exact floor, with no
wrap; unity gives the input and silence 0. -/
def Obligations.ScalingIsTheExactFloor : Prop :=
  ∀ (g : Int) (x : Sample), 0 ≤ g → g ≤ 65536 →
    (scale g x).toInt * 65536 ≤ g * x.toInt ∧ g * x.toInt < ((scale g x).toInt + 1) * 65536 ∧
    (g = 65536 → scale g x = x) ∧ (g = 0 → scale g x = 0#16)

/-- No output sample of an active block is larger than its input or of the other sign, in every state that meets the
invariant, whatever transitions the sample runs through (42_linear_gain_scaler.md sections 3 and 4). -/
def Obligations.OutputNeverExceedsTheInput : Prop :=
  ∀ (x : Sample) (s : State), Inv s → s.inBlock = true →
    ∃ (t : State) (y : Sample) (l : Bool), exec (.samp x) s = .next t ∧
      t.responses = s.responses ++ [(Response.smp y l).word] ∧
      |y.toInt| ≤ |x.toInt| ∧ 0 ≤ y.toInt * x.toInt

/-- Under `TableEndpoints` the first rendered sample of an ATTACK is 0 and that of a HOLD, DECAY or FORCED is its input
(42_linear_gain_scaler.md section 5). -/
def Obligations.FirstSampleOfAPhase : Prop :=
  ∀ (P : Params) (x : Sample) (s : State), P.TableEndpoints → CoeffsMatchPhase s → s.phaseAccumulator = 0#32 →
    (s.state = .attack → renderOutput P x s = 0#16) ∧
    (s.state = .hold ∨ s.state = .decay ∨ s.state = .forced → renderOutput P x s = x)

/-! ## Configuration and observation -/

/-- `NOP` answers ACK and reads and writes no state (43_config_and_system.md R170). -/
def Obligations.NopOnlyAnswers : Prop :=
  ∀ s : State, exec .nop s = .next (answered 0 s)

/-- `CFGW` (43_config_and_system.md R171): each writable address replaces its one register; reserved addresses and
read-only registers are illegal. -/
def Obligations.CfgwWritesOneRegister : Prop :=
  ∀ (a : RegAddr) (v : Word32) (s : State),
    exec (.cfgw a v) s = .next
      (match a.toNat with
      | 0x0 => answered 0 { s with attackSamples := v }
      | 0x1 => answered 0 { s with holdSamples := v }
      | 0x2 => answered 0 { s with decaySamples := v }
      | 0x3 => answered 0 { s with forcedDecaySamples := v }
      | 0x4 => answered 0 { s with maxRetriggers := v }
      | 0x5 => illegal 3 s
      | 0x6 => illegal 3 s
      | 0x7 => illegal 3 s
      | _ => illegal 4 s)

/-- `CFGR` (43_config_and_system.md R172): the value the register map gives, with no side effect; reserved addresses are
illegal. -/
def Obligations.CfgrReadsTheMap : Prop :=
  ∀ (a : RegAddr) (s : State),
    exec (.cfgr a) s = .next
      (match mapRead a.toNat s with
      | some v => answered (0x300000000 + v) s
      | none => illegal 3 s)

/-- `STATUS` (10_state.md R35): what reading address 0x8 answers, each field at its place and the rest 0, and that it
cannot be written. -/
def Obligations.StatusFieldsStandInTheirPlaces : Prop :=
  ∀ s : State,
    (∃ v : Word32, exec (.cfgr 0x8#4) s = .next (answered (0x300000000 + v.toNat) s) ∧
      (v.extractLsb' 0 3).toNat =
        (match s.state with | .idle => 0 | .attack => 1 | .hold => 2 | .decay => 3 | .forced => 4) ∧
      v.getLsbD 3 = s.inBlock ∧ v.getLsbD 4 = s.tail ∧ v.getLsbD 5 = s.err ∧
      v.extractLsb' 6 3 = s.errcode ∧ v.extractLsb' 9 23 = 0#23) ∧
    ∀ v : Word32, exec (.cfgw 0x8#4 v) s = .next (illegal 4 s)

/-- A written register reads back what was written and every other register of the map reads as before
(43_config_and_system.md sections on `CFGW` and `CFGR`). -/
def Obligations.WrittenRegisterReadsBack : Prop :=
  ∀ (a b : RegAddr) (v : Word32) (s t : State), a.toNat ≤ 4 → exec (.cfgw a v) s = .next t →
    mapRead b.toNat t = if b = a then some v.toNat else mapRead b.toNat s

/-! ## Whole-machine rules -/

/-- What each operation may write, by the groups of the record (10_state.md section 1): configuration only by `CFGW`,
working registers only by `TRIG` and `SAMP`, framing only by `BSTART` and `SAMP`, nothing by `NOP` and `CFGR`. -/
def Obligations.EachOperationStaysInItsGroups : Prop :=
  ∀ (i : Instr) (s t : State), i.WellFormed → exec i s = .next t →
    t.port = s.port ∧ (∃ v, t.responses = s.responses ++ [v]) ∧
    ((∀ a v, i ≠ .cfgw a v) → SameConfig s t) ∧
    ((i ≠ .trig ∧ ∀ x, i ≠ .samp x) → SameWorking s t) ∧
    ((i ≠ .bstart ∧ ∀ x, i ≠ .samp x) → SameFraming s t ∧ SameErrors s t)

/-- IDLE is left only by `TRIG`, into ATTACK, and entered only by RESET or by a `SAMP` that finds a phase finished
(40_envelope_state_machine.md R110). -/
def Obligations.IdleIsLeftOnlyByTrig : Prop :=
  ∀ s t : State, step s = .next t →
    (s.state = .idle → t.state ≠ .idle →
      t.state = .attack ∧ ∃ rest, s.port = .command 0x1000000000#40 :: rest) ∧
    (s.state ≠ .idle → t.state = .idle →
      resetIsNext s = true ∨
      s.remaining = 0#32 ∧ s.inBlock = true ∧ ∃ w x rest, s.port = .command w :: rest ∧ decode w = .ok (.samp x))

/-- While IDLE no operation but `TRIG` touches a working register, and a `SAMP` answers 0 or is refused (10_state.md
section 6). -/
def Obligations.IdleIsSilentAndStill : Prop :=
  ∀ (i : Instr) (s t : State), s.state = .idle → i ≠ .trig → exec i s = .next t →
    SameWorking s t ∧
    ∀ x, i = .samp x →
      t.responses = s.responses ++ [0x200000000#36] ∨ t.responses = s.responses ++ [0x200010000#36] ∨
      t.responses = s.responses ++ [0xF00000005#36]

/-! ## Invariants -/

/-- Every step keeps the invariants 2 to 6 of 10_state.md section 6, from every state that meets them. -/
def Obligations.EveryStepKeepsTheInvariants : Prop :=
  ∀ s t : State, Inv s → step s = .next t → Inv t

/-- Every step keeps the sweep invariant (item 8 of 10_state.md section 6): in a phase, `remaining`, the increment and
the accumulator are those of some duration after some number of rendered samples. -/
def Obligations.EveryStepKeepsTheSweep : Prop :=
  ∀ s t : State, SweepOk s → step s = .next t → SweepOk t

/-- Every state of every run from reset, whatever the host presents, meets the invariants (10_state.md R39). -/
def Obligations.ReachableStatesMeetTheInvariants : Prop :=
  ∀ s : State, Reachable s → Inv s ∧ SweepOk s

/-- A phase entry into HOLD or FORCED leaves samples to render (item 7 of 10_state.md section 6). -/
def Obligations.EntryToHoldOrForcedHasSamples : Prop :=
  ∀ s : State,
    (s.state ≠ .hold → (transition s).state = .hold → (transition s).remaining ≠ 0#32) ∧
    (∀ t : State, exec .trig s = .next t → s.state ≠ .forced → t.state = .forced → t.remaining ≠ 0#32)

/-- The invariants hold at reset, whatever the host presents. -/
def Obligations.InvariantsHoldAtReset : Prop :=
  ∀ inputs : List Input, Inv { State.reset with port := inputs } ∧ SweepOk { State.reset with port := inputs }
end

