-- ==== Sys2Proof/Laws/State.lean ====
section
/-! SUPPORT. One lemma per field of `State` per update of Machine/Flags.lean and Machine/Ops.lean, each true by
`rfl`, so that no proof unfolds a record update. -/

namespace Sys2Proof.Machine

/-! `respond` -/

@[simp] theorem respond_state (r : Response) (s : State) : (respond r s).state = s.state := rfl
@[simp] theorem respond_remaining (r : Response) (s : State) : (respond r s).remaining = s.remaining := rfl
@[simp] theorem respond_phaseAccumulator (r : Response) (s : State) : (respond r s).phaseAccumulator = s.phaseAccumulator := rfl
@[simp] theorem respond_phaseIncrement (r : Response) (s : State) : (respond r s).phaseIncrement = s.phaseIncrement := rfl
@[simp] theorem respond_retriggerCount (r : Response) (s : State) : (respond r s).retriggerCount = s.retriggerCount := rfl
@[simp] theorem respond_gainMultiplier (r : Response) (s : State) : (respond r s).gainMultiplier = s.gainMultiplier := rfl
@[simp] theorem respond_gainOffset (r : Response) (s : State) : (respond r s).gainOffset = s.gainOffset := rfl
@[simp] theorem respond_attackSamples (r : Response) (s : State) : (respond r s).attackSamples = s.attackSamples := rfl
@[simp] theorem respond_holdSamples (r : Response) (s : State) : (respond r s).holdSamples = s.holdSamples := rfl
@[simp] theorem respond_decaySamples (r : Response) (s : State) : (respond r s).decaySamples = s.decaySamples := rfl
@[simp] theorem respond_forcedDecaySamples (r : Response) (s : State) : (respond r s).forcedDecaySamples = s.forcedDecaySamples := rfl
@[simp] theorem respond_maxRetriggers (r : Response) (s : State) : (respond r s).maxRetriggers = s.maxRetriggers := rfl
@[simp] theorem respond_inBlock (r : Response) (s : State) : (respond r s).inBlock = s.inBlock := rfl
@[simp] theorem respond_tail (r : Response) (s : State) : (respond r s).tail = s.tail := rfl
@[simp] theorem respond_blockPos (r : Response) (s : State) : (respond r s).blockPos = s.blockPos := rfl
@[simp] theorem respond_err (r : Response) (s : State) : (respond r s).err = s.err := rfl
@[simp] theorem respond_errcode (r : Response) (s : State) : (respond r s).errcode = s.errcode := rfl
@[simp] theorem respond_port (r : Response) (s : State) : (respond r s).port = s.port := rfl
@[simp] theorem respond_responses (r : Response) (s : State) : (respond r s).responses = s.responses ++ [r.word] := rfl

/-! `recordError` -/

@[simp] theorem recordError_state (c : IllegalCause) (s : State) : (recordError c s).state = s.state := rfl
@[simp] theorem recordError_remaining (c : IllegalCause) (s : State) : (recordError c s).remaining = s.remaining := rfl
@[simp] theorem recordError_phaseAccumulator (c : IllegalCause) (s : State) : (recordError c s).phaseAccumulator = s.phaseAccumulator := rfl
@[simp] theorem recordError_phaseIncrement (c : IllegalCause) (s : State) : (recordError c s).phaseIncrement = s.phaseIncrement := rfl
@[simp] theorem recordError_retriggerCount (c : IllegalCause) (s : State) : (recordError c s).retriggerCount = s.retriggerCount := rfl
@[simp] theorem recordError_gainMultiplier (c : IllegalCause) (s : State) : (recordError c s).gainMultiplier = s.gainMultiplier := rfl
@[simp] theorem recordError_gainOffset (c : IllegalCause) (s : State) : (recordError c s).gainOffset = s.gainOffset := rfl
@[simp] theorem recordError_attackSamples (c : IllegalCause) (s : State) : (recordError c s).attackSamples = s.attackSamples := rfl
@[simp] theorem recordError_holdSamples (c : IllegalCause) (s : State) : (recordError c s).holdSamples = s.holdSamples := rfl
@[simp] theorem recordError_decaySamples (c : IllegalCause) (s : State) : (recordError c s).decaySamples = s.decaySamples := rfl
@[simp] theorem recordError_forcedDecaySamples (c : IllegalCause) (s : State) : (recordError c s).forcedDecaySamples = s.forcedDecaySamples := rfl
@[simp] theorem recordError_maxRetriggers (c : IllegalCause) (s : State) : (recordError c s).maxRetriggers = s.maxRetriggers := rfl
@[simp] theorem recordError_inBlock (c : IllegalCause) (s : State) : (recordError c s).inBlock = s.inBlock := rfl
@[simp] theorem recordError_tail (c : IllegalCause) (s : State) : (recordError c s).tail = s.tail := rfl
@[simp] theorem recordError_blockPos (c : IllegalCause) (s : State) : (recordError c s).blockPos = s.blockPos := rfl
@[simp] theorem recordError_err (c : IllegalCause) (s : State) : (recordError c s).err = true := rfl
@[simp] theorem recordError_errcode (c : IllegalCause) (s : State) : (recordError c s).errcode = if s.err then s.errcode else c.code := rfl
@[simp] theorem recordError_port (c : IllegalCause) (s : State) : (recordError c s).port = s.port := rfl
@[simp] theorem recordError_responses (c : IllegalCause) (s : State) : (recordError c s).responses = s.responses := rfl

/-! `present` -/

@[simp] theorem present_state (w : CommandWord) (s : State) : (present w s).state = s.state := rfl
@[simp] theorem present_remaining (w : CommandWord) (s : State) : (present w s).remaining = s.remaining := rfl
@[simp] theorem present_phaseAccumulator (w : CommandWord) (s : State) : (present w s).phaseAccumulator = s.phaseAccumulator := rfl
@[simp] theorem present_phaseIncrement (w : CommandWord) (s : State) : (present w s).phaseIncrement = s.phaseIncrement := rfl
@[simp] theorem present_retriggerCount (w : CommandWord) (s : State) : (present w s).retriggerCount = s.retriggerCount := rfl
@[simp] theorem present_gainMultiplier (w : CommandWord) (s : State) : (present w s).gainMultiplier = s.gainMultiplier := rfl
@[simp] theorem present_gainOffset (w : CommandWord) (s : State) : (present w s).gainOffset = s.gainOffset := rfl
@[simp] theorem present_attackSamples (w : CommandWord) (s : State) : (present w s).attackSamples = s.attackSamples := rfl
@[simp] theorem present_holdSamples (w : CommandWord) (s : State) : (present w s).holdSamples = s.holdSamples := rfl
@[simp] theorem present_decaySamples (w : CommandWord) (s : State) : (present w s).decaySamples = s.decaySamples := rfl
@[simp] theorem present_forcedDecaySamples (w : CommandWord) (s : State) : (present w s).forcedDecaySamples = s.forcedDecaySamples := rfl
@[simp] theorem present_maxRetriggers (w : CommandWord) (s : State) : (present w s).maxRetriggers = s.maxRetriggers := rfl
@[simp] theorem present_inBlock (w : CommandWord) (s : State) : (present w s).inBlock = s.inBlock := rfl
@[simp] theorem present_tail (w : CommandWord) (s : State) : (present w s).tail = s.tail := rfl
@[simp] theorem present_blockPos (w : CommandWord) (s : State) : (present w s).blockPos = s.blockPos := rfl
@[simp] theorem present_err (w : CommandWord) (s : State) : (present w s).err = s.err := rfl
@[simp] theorem present_errcode (w : CommandWord) (s : State) : (present w s).errcode = s.errcode := rfl
@[simp] theorem present_port (w : CommandWord) (s : State) : (present w s).port = .command w :: s.port := rfl
@[simp] theorem present_responses (w : CommandWord) (s : State) : (present w s).responses = s.responses := rfl

/-! `resetEvent` -/

@[simp] theorem resetEvent_state (s : State) : (resetEvent s).state = .idle := rfl
@[simp] theorem resetEvent_remaining (s : State) : (resetEvent s).remaining = 0#32 := rfl
@[simp] theorem resetEvent_phaseAccumulator (s : State) : (resetEvent s).phaseAccumulator = 0#32 := rfl
@[simp] theorem resetEvent_phaseIncrement (s : State) : (resetEvent s).phaseIncrement = 0#32 := rfl
@[simp] theorem resetEvent_retriggerCount (s : State) : (resetEvent s).retriggerCount = 0#32 := rfl
@[simp] theorem resetEvent_gainMultiplier (s : State) : (resetEvent s).gainMultiplier = 0#32 := rfl
@[simp] theorem resetEvent_gainOffset (s : State) : (resetEvent s).gainOffset = 0#32 := rfl
@[simp] theorem resetEvent_attackSamples (s : State) : (resetEvent s).attackSamples = 0#32 := rfl
@[simp] theorem resetEvent_holdSamples (s : State) : (resetEvent s).holdSamples = 0#32 := rfl
@[simp] theorem resetEvent_decaySamples (s : State) : (resetEvent s).decaySamples = 0#32 := rfl
@[simp] theorem resetEvent_forcedDecaySamples (s : State) : (resetEvent s).forcedDecaySamples = 0#32 := rfl
@[simp] theorem resetEvent_maxRetriggers (s : State) : (resetEvent s).maxRetriggers = 0#32 := rfl
@[simp] theorem resetEvent_inBlock (s : State) : (resetEvent s).inBlock = false := rfl
@[simp] theorem resetEvent_tail (s : State) : (resetEvent s).tail = false := rfl
@[simp] theorem resetEvent_blockPos (s : State) : (resetEvent s).blockPos = 0#16 := rfl
@[simp] theorem resetEvent_err (s : State) : (resetEvent s).err = false := rfl
@[simp] theorem resetEvent_errcode (s : State) : (resetEvent s).errcode = 0#3 := rfl
@[simp] theorem resetEvent_port (s : State) : (resetEvent s).port = s.port := rfl
@[simp] theorem resetEvent_responses (s : State) : (resetEvent s).responses = s.responses := rfl

/-! `openBlock` -/

@[simp] theorem openBlock_state (s : State) : (openBlock s).state = s.state := rfl
@[simp] theorem openBlock_remaining (s : State) : (openBlock s).remaining = s.remaining := rfl
@[simp] theorem openBlock_phaseAccumulator (s : State) : (openBlock s).phaseAccumulator = s.phaseAccumulator := rfl
@[simp] theorem openBlock_phaseIncrement (s : State) : (openBlock s).phaseIncrement = s.phaseIncrement := rfl
@[simp] theorem openBlock_retriggerCount (s : State) : (openBlock s).retriggerCount = s.retriggerCount := rfl
@[simp] theorem openBlock_gainMultiplier (s : State) : (openBlock s).gainMultiplier = s.gainMultiplier := rfl
@[simp] theorem openBlock_gainOffset (s : State) : (openBlock s).gainOffset = s.gainOffset := rfl
@[simp] theorem openBlock_attackSamples (s : State) : (openBlock s).attackSamples = s.attackSamples := rfl
@[simp] theorem openBlock_holdSamples (s : State) : (openBlock s).holdSamples = s.holdSamples := rfl
@[simp] theorem openBlock_decaySamples (s : State) : (openBlock s).decaySamples = s.decaySamples := rfl
@[simp] theorem openBlock_forcedDecaySamples (s : State) : (openBlock s).forcedDecaySamples = s.forcedDecaySamples := rfl
@[simp] theorem openBlock_maxRetriggers (s : State) : (openBlock s).maxRetriggers = s.maxRetriggers := rfl
@[simp] theorem openBlock_inBlock (s : State) : (openBlock s).inBlock = blockActive s := rfl
@[simp] theorem openBlock_tail (s : State) : (openBlock s).tail = false := rfl
@[simp] theorem openBlock_blockPos (s : State) : (openBlock s).blockPos = 0#16 := rfl
@[simp] theorem openBlock_err (s : State) : (openBlock s).err = s.err := rfl
@[simp] theorem openBlock_errcode (s : State) : (openBlock s).errcode = s.errcode := rfl
@[simp] theorem openBlock_port (s : State) : (openBlock s).port = s.port := rfl
@[simp] theorem openBlock_responses (s : State) : (openBlock s).responses = s.responses := rfl

/-! `startTail` -/

@[simp] theorem startTail_state (s : State) : (startTail s).state = s.state := rfl
@[simp] theorem startTail_remaining (s : State) : (startTail s).remaining = s.remaining := rfl
@[simp] theorem startTail_phaseAccumulator (s : State) : (startTail s).phaseAccumulator = s.phaseAccumulator := rfl
@[simp] theorem startTail_phaseIncrement (s : State) : (startTail s).phaseIncrement = s.phaseIncrement := rfl
@[simp] theorem startTail_retriggerCount (s : State) : (startTail s).retriggerCount = s.retriggerCount := rfl
@[simp] theorem startTail_gainMultiplier (s : State) : (startTail s).gainMultiplier = s.gainMultiplier := rfl
@[simp] theorem startTail_gainOffset (s : State) : (startTail s).gainOffset = s.gainOffset := rfl
@[simp] theorem startTail_attackSamples (s : State) : (startTail s).attackSamples = s.attackSamples := rfl
@[simp] theorem startTail_holdSamples (s : State) : (startTail s).holdSamples = s.holdSamples := rfl
@[simp] theorem startTail_decaySamples (s : State) : (startTail s).decaySamples = s.decaySamples := rfl
@[simp] theorem startTail_forcedDecaySamples (s : State) : (startTail s).forcedDecaySamples = s.forcedDecaySamples := rfl
@[simp] theorem startTail_maxRetriggers (s : State) : (startTail s).maxRetriggers = s.maxRetriggers := rfl
@[simp] theorem startTail_inBlock (s : State) : (startTail s).inBlock = s.inBlock := rfl
@[simp] theorem startTail_tail (s : State) : (startTail s).tail = true := rfl
@[simp] theorem startTail_blockPos (s : State) : (startTail s).blockPos = s.blockPos := rfl
@[simp] theorem startTail_err (s : State) : (startTail s).err = s.err := rfl
@[simp] theorem startTail_errcode (s : State) : (startTail s).errcode = s.errcode := rfl
@[simp] theorem startTail_port (s : State) : (startTail s).port = s.port := rfl
@[simp] theorem startTail_responses (s : State) : (startTail s).responses = s.responses := rfl

/-! `enterPhase` -/

@[simp] theorem enterPhase_state (p : Phase) (d : Word32) (a b : Level) (s : State) : (enterPhase p d a b s).state = p := rfl
@[simp] theorem enterPhase_remaining (p : Phase) (d : Word32) (a b : Level) (s : State) : (enterPhase p d a b s).remaining = d := rfl
@[simp] theorem enterPhase_phaseAccumulator (p : Phase) (d : Word32) (a b : Level) (s : State) : (enterPhase p d a b s).phaseAccumulator = 0#32 := rfl
@[simp] theorem enterPhase_phaseIncrement (p : Phase) (d : Word32) (a b : Level) (s : State) : (enterPhase p d a b s).phaseIncrement = phaseIncrementFor d := rfl
@[simp] theorem enterPhase_retriggerCount (p : Phase) (d : Word32) (a b : Level) (s : State) : (enterPhase p d a b s).retriggerCount = s.retriggerCount := rfl
@[simp] theorem enterPhase_gainMultiplier (p : Phase) (d : Word32) (a b : Level) (s : State) : (enterPhase p d a b s).gainMultiplier = (coeffs a.value b.value).1 := rfl
@[simp] theorem enterPhase_gainOffset (p : Phase) (d : Word32) (a b : Level) (s : State) : (enterPhase p d a b s).gainOffset = (coeffs a.value b.value).2 := rfl
@[simp] theorem enterPhase_attackSamples (p : Phase) (d : Word32) (a b : Level) (s : State) : (enterPhase p d a b s).attackSamples = s.attackSamples := rfl
@[simp] theorem enterPhase_holdSamples (p : Phase) (d : Word32) (a b : Level) (s : State) : (enterPhase p d a b s).holdSamples = s.holdSamples := rfl
@[simp] theorem enterPhase_decaySamples (p : Phase) (d : Word32) (a b : Level) (s : State) : (enterPhase p d a b s).decaySamples = s.decaySamples := rfl
@[simp] theorem enterPhase_forcedDecaySamples (p : Phase) (d : Word32) (a b : Level) (s : State) : (enterPhase p d a b s).forcedDecaySamples = s.forcedDecaySamples := rfl
@[simp] theorem enterPhase_maxRetriggers (p : Phase) (d : Word32) (a b : Level) (s : State) : (enterPhase p d a b s).maxRetriggers = s.maxRetriggers := rfl
@[simp] theorem enterPhase_inBlock (p : Phase) (d : Word32) (a b : Level) (s : State) : (enterPhase p d a b s).inBlock = s.inBlock := rfl
@[simp] theorem enterPhase_tail (p : Phase) (d : Word32) (a b : Level) (s : State) : (enterPhase p d a b s).tail = s.tail := rfl
@[simp] theorem enterPhase_blockPos (p : Phase) (d : Word32) (a b : Level) (s : State) : (enterPhase p d a b s).blockPos = s.blockPos := rfl
@[simp] theorem enterPhase_err (p : Phase) (d : Word32) (a b : Level) (s : State) : (enterPhase p d a b s).err = s.err := rfl
@[simp] theorem enterPhase_errcode (p : Phase) (d : Word32) (a b : Level) (s : State) : (enterPhase p d a b s).errcode = s.errcode := rfl
@[simp] theorem enterPhase_port (p : Phase) (d : Word32) (a b : Level) (s : State) : (enterPhase p d a b s).port = s.port := rfl
@[simp] theorem enterPhase_responses (p : Phase) (d : Word32) (a b : Level) (s : State) : (enterPhase p d a b s).responses = s.responses := rfl

/-! `enterIdle` -/

@[simp] theorem enterIdle_state (s : State) : (enterIdle s).state = .idle := rfl
@[simp] theorem enterIdle_remaining (s : State) : (enterIdle s).remaining = s.remaining := rfl
@[simp] theorem enterIdle_phaseAccumulator (s : State) : (enterIdle s).phaseAccumulator = s.phaseAccumulator := rfl
@[simp] theorem enterIdle_phaseIncrement (s : State) : (enterIdle s).phaseIncrement = s.phaseIncrement := rfl
@[simp] theorem enterIdle_retriggerCount (s : State) : (enterIdle s).retriggerCount = s.retriggerCount := rfl
@[simp] theorem enterIdle_gainMultiplier (s : State) : (enterIdle s).gainMultiplier = s.gainMultiplier := rfl
@[simp] theorem enterIdle_gainOffset (s : State) : (enterIdle s).gainOffset = s.gainOffset := rfl
@[simp] theorem enterIdle_attackSamples (s : State) : (enterIdle s).attackSamples = s.attackSamples := rfl
@[simp] theorem enterIdle_holdSamples (s : State) : (enterIdle s).holdSamples = s.holdSamples := rfl
@[simp] theorem enterIdle_decaySamples (s : State) : (enterIdle s).decaySamples = s.decaySamples := rfl
@[simp] theorem enterIdle_forcedDecaySamples (s : State) : (enterIdle s).forcedDecaySamples = s.forcedDecaySamples := rfl
@[simp] theorem enterIdle_maxRetriggers (s : State) : (enterIdle s).maxRetriggers = s.maxRetriggers := rfl
@[simp] theorem enterIdle_inBlock (s : State) : (enterIdle s).inBlock = s.inBlock := rfl
@[simp] theorem enterIdle_tail (s : State) : (enterIdle s).tail = s.tail := rfl
@[simp] theorem enterIdle_blockPos (s : State) : (enterIdle s).blockPos = s.blockPos := rfl
@[simp] theorem enterIdle_err (s : State) : (enterIdle s).err = s.err := rfl
@[simp] theorem enterIdle_errcode (s : State) : (enterIdle s).errcode = s.errcode := rfl
@[simp] theorem enterIdle_port (s : State) : (enterIdle s).port = s.port := rfl
@[simp] theorem enterIdle_responses (s : State) : (enterIdle s).responses = s.responses := rfl

/-! `countRetrigger` -/

@[simp] theorem countRetrigger_state (s : State) : (countRetrigger s).state = s.state := rfl
@[simp] theorem countRetrigger_remaining (s : State) : (countRetrigger s).remaining = s.remaining := rfl
@[simp] theorem countRetrigger_phaseAccumulator (s : State) : (countRetrigger s).phaseAccumulator = s.phaseAccumulator := rfl
@[simp] theorem countRetrigger_phaseIncrement (s : State) : (countRetrigger s).phaseIncrement = s.phaseIncrement := rfl
@[simp] theorem countRetrigger_retriggerCount (s : State) : (countRetrigger s).retriggerCount = s32 (s.retriggerCount.toInt - 1) := rfl
@[simp] theorem countRetrigger_gainMultiplier (s : State) : (countRetrigger s).gainMultiplier = s.gainMultiplier := rfl
@[simp] theorem countRetrigger_gainOffset (s : State) : (countRetrigger s).gainOffset = s.gainOffset := rfl
@[simp] theorem countRetrigger_attackSamples (s : State) : (countRetrigger s).attackSamples = s.attackSamples := rfl
@[simp] theorem countRetrigger_holdSamples (s : State) : (countRetrigger s).holdSamples = s.holdSamples := rfl
@[simp] theorem countRetrigger_decaySamples (s : State) : (countRetrigger s).decaySamples = s.decaySamples := rfl
@[simp] theorem countRetrigger_forcedDecaySamples (s : State) : (countRetrigger s).forcedDecaySamples = s.forcedDecaySamples := rfl
@[simp] theorem countRetrigger_maxRetriggers (s : State) : (countRetrigger s).maxRetriggers = s.maxRetriggers := rfl
@[simp] theorem countRetrigger_inBlock (s : State) : (countRetrigger s).inBlock = s.inBlock := rfl
@[simp] theorem countRetrigger_tail (s : State) : (countRetrigger s).tail = s.tail := rfl
@[simp] theorem countRetrigger_blockPos (s : State) : (countRetrigger s).blockPos = s.blockPos := rfl
@[simp] theorem countRetrigger_err (s : State) : (countRetrigger s).err = s.err := rfl
@[simp] theorem countRetrigger_errcode (s : State) : (countRetrigger s).errcode = s.errcode := rfl
@[simp] theorem countRetrigger_port (s : State) : (countRetrigger s).port = s.port := rfl
@[simp] theorem countRetrigger_responses (s : State) : (countRetrigger s).responses = s.responses := rfl

/-! `advance` -/

@[simp] theorem advance_state (s : State) : (advance s).state = s.state := rfl
@[simp] theorem advance_remaining (s : State) : (advance s).remaining = s.remaining - 1#32 := rfl
@[simp] theorem advance_phaseAccumulator (s : State) : (advance s).phaseAccumulator = s.phaseAccumulator + s.phaseIncrement := rfl
@[simp] theorem advance_phaseIncrement (s : State) : (advance s).phaseIncrement = s.phaseIncrement := rfl
@[simp] theorem advance_retriggerCount (s : State) : (advance s).retriggerCount = s.retriggerCount := rfl
@[simp] theorem advance_gainMultiplier (s : State) : (advance s).gainMultiplier = s.gainMultiplier := rfl
@[simp] theorem advance_gainOffset (s : State) : (advance s).gainOffset = s.gainOffset := rfl
@[simp] theorem advance_attackSamples (s : State) : (advance s).attackSamples = s.attackSamples := rfl
@[simp] theorem advance_holdSamples (s : State) : (advance s).holdSamples = s.holdSamples := rfl
@[simp] theorem advance_decaySamples (s : State) : (advance s).decaySamples = s.decaySamples := rfl
@[simp] theorem advance_forcedDecaySamples (s : State) : (advance s).forcedDecaySamples = s.forcedDecaySamples := rfl
@[simp] theorem advance_maxRetriggers (s : State) : (advance s).maxRetriggers = s.maxRetriggers := rfl
@[simp] theorem advance_inBlock (s : State) : (advance s).inBlock = s.inBlock := rfl
@[simp] theorem advance_tail (s : State) : (advance s).tail = s.tail := rfl
@[simp] theorem advance_blockPos (s : State) : (advance s).blockPos = s.blockPos := rfl
@[simp] theorem advance_err (s : State) : (advance s).err = s.err := rfl
@[simp] theorem advance_errcode (s : State) : (advance s).errcode = s.errcode := rfl
@[simp] theorem advance_port (s : State) : (advance s).port = s.port := rfl
@[simp] theorem advance_responses (s : State) : (advance s).responses = s.responses := rfl

end Sys2Proof.Machine
end

