-- ==== Sys2Proof/Laws/Words.lean ====
section
/-! SUPPORT. Small lemmas about the parameters, the register map and the datapath's widths. -/

namespace Sys2Proof

/-- `1 <= BLOCK_LEN` (00_scope.md R6). -/
theorem Params.blockLen_pos (P : Params) : 1 ≤ P.blockLen := by simp [Params.blockLen]

/-- `BLOCK_LEN <= 65535` (00_scope.md R6). -/
theorem Params.blockLen_le (P : Params) : P.blockLen ≤ 65535 := by
  have := P.blockLenPred.isLt
  simp only [Params.blockLen]; omega

/-- The 16-bit pattern of `BLOCK_LEN - 1` is that number. -/
theorem Params.blockLen_pred_toNat (P : Params) : (BitVec.ofNat 16 (P.blockLen - 1)).toNat = P.blockLen - 1 := by
  have := P.blockLen_le
  rw [BitVec.toNat_ofNat]; omega

/-- Every register is the one at its address. -/
theorem Reg.ofAddr_addr (r : Reg) : Reg.ofAddr r.addr = some r := by cases r <;> rfl

/-- A register found at an address has that address. -/
theorem Reg.addr_of_ofAddr (a : RegAddr) (r : Reg) (h : Reg.ofAddr a = some r) : r.addr = a := by
  revert a r; decide

/-- The addresses with a register are 0x0 to 0x4 and 0x8 to 0xF (10_state.md R37). -/
theorem Reg.ofAddr_eq_none_iff (a : RegAddr) : Reg.ofAddr a = none ↔ 5 ≤ a.toNat ∧ a.toNat ≤ 7 := by
  revert a; decide

/-- The writable addresses are 0x0 to 0x4 (10_state.md R37). -/
theorem Reg.writable_iff (a : RegAddr) :
    (∃ r, Reg.ofAddr a = some r ∧ r.readOnly = false) ↔ a.toNat ≤ 4 := by
  revert a
  have h : ∀ a : RegAddr, (match Reg.ofAddr a with | some r => !r.readOnly | none => false) = decide (a.toNat ≤ 4) := by
    decide
  intro a
  have ha := h a
  constructor
  · rintro ⟨r, hr, hro⟩
    rw [hr] at ha; simpa [hro] using ha
  · intro hle
    cases hr : Reg.ofAddr a with
    | none => rw [hr] at ha; simp [hle] at ha
    | some r => rw [hr] at ha; exact ⟨r, rfl, by simpa [hle] using ha⟩

/-- Every operation is the one of its code. -/
theorem Op.ofCode_code (o : Op) : Op.ofCode o.code = some o := by cases o <;> rfl

/-- An operation found for a code has that code. -/
theorem Op.code_of_ofCode (c : BitVec 4) (o : Op) (h : Op.ofCode c = some o) : o.code = c := by
  revert c o; decide

/-- The bits of a command word (30_encoding.md R70). -/
theorem commandWord_getLsbD (op : Op) (a : RegAddr) (d : Word32) (j : Nat) :
    (commandWord op a d).getLsbD j =
      if j < 32 then d.getLsbD j else if j < 36 then a.getLsbD (j - 32) else op.code.getLsbD (j - 36) := by
  unfold commandWord
  rw [BitVec.getLsbD_append, BitVec.getLsbD_append]
  by_cases h : j < 32
  · simp [h]
  · by_cases h' : j < 36
    · simp [h, h', show j - 32 < 4 by omega]
    · simp [h, h', show ¬ j - 32 < 4 by omega, show j - 32 - 4 = j - 36 by omega]

/-- The fields of a command word are what it was made of. -/
theorem commandWord_fields (op : Op) (a : RegAddr) (d : Word32) :
    opField (commandWord op a d) = op.code ∧ addrField (commandWord op a d) = a ∧
      dataField (commandWord op a d) = d := by
  refine ⟨?_, ?_, ?_⟩ <;> refine BitVec.eq_of_getLsbD_eq fun j hj => ?_
  · simp [opField, commandWord_getLsbD, hj]; omega
  · simp [addrField, commandWord_getLsbD, hj]; omega
  · simp [dataField, commandWord_getLsbD, hj]

/-- A command word is made of its fields. -/
theorem commandWord_of_fields (op : Op) (w : CommandWord) (h : opField w = op.code) :
    commandWord op (addrField w) (dataField w) = w := by
  refine BitVec.eq_of_getLsbD_eq fun j hj => ?_
  rw [commandWord_getLsbD, ← h]
  by_cases h1 : j < 32
  · simp [h1, dataField]
  · by_cases h2 : j < 36
    · simp [h1, h2, addrField, show j - 32 < 4 by omega, show 32 + (j - 32) = j by omega]
    · simp [h1, h2, opField, show j - 36 < 4 by omega, show 36 + (j - 36) = j by omega]

/-- The bits of a response word (30_encoding.md R74). -/
theorem responseWord_getLsbD (k : BitVec 4) (p : Word32) (j : Nat) :
    (responseWord k p).getLsbD j = if j < 32 then p.getLsbD j else k.getLsbD (j - 32) := by
  unfold responseWord
  rw [BitVec.getLsbD_append]

/-- The bits of the payload of a sample response (30_encoding.md R74). -/
theorem samplePayload_getLsbD (y : Sample) (l : Bool) (j : Nat) :
    (samplePayload y l).getLsbD j = if j < 16 then y.getLsbD j else decide (j = 16) && l := by
  unfold samplePayload
  rw [BitVec.getLsbD_append, BitVec.getLsbD_append]
  by_cases h : j < 16
  · simp [h, show j < 17 by omega]
  · by_cases h' : j = 16
    · simp [h']
    · simp [h, h', show ¬ j < 17 by omega]

namespace Machine

/-- A table entry is at most 65536 (00_scope.md R8). -/
theorem tableLow_le (P : Params) (acc : Word32) : tableLow P acc ≤ 65536 := by
  have := (P.table (tableIndex acc).castSucc).isLt
  simp only [tableLow]; omega

/-- A table entry is at most 65536 (00_scope.md R8). -/
theorem tableHigh_le (P : Params) (acc : Word32) : tableHigh P acc ≤ 65536 := by
  have := (P.table (tableIndex acc).succ).isLt
  simp only [tableHigh]; omega

/-- The blend weight is below 65536 (41_phase_accumulator_lut_interp.md R135). -/
theorem blendWeight_lt (acc : Word32) : blendWeight acc < 65536 := (acc.extractLsb' 8 16).isLt

/-- A zero duration stores a zero increment (40_envelope_state_machine.md R104). -/
@[simp] theorem phaseIncrementFor_zero : phaseIncrementFor 0#32 = 0#32 := rfl

/-- The three coefficient pairs (42_linear_gain_scaler.md R161). -/
theorem coeffs_levels (a b : Level) :
    coeffs a.value b.value = (s32 (b.value - a.value), s32 a.value) := rfl

end Machine

end Sys2Proof
end

