-- ==== Sys2Proof/Laws/Ops.lean ====
section
/-! SUPPORT. For each shared operation, one lemma that says once everything it can do; proofs cite these instead of
unfolding the operation. -/

namespace Sys2Proof.Machine

/-! ## Ports, the illegal outcome, RESET -/

/-- Nothing is taken exactly when nothing is presented. -/
theorem fetch_eq_none_iff (s : State) : fetch s = none ↔ s.port = [] := by
  unfold fetch; split <;> simp_all

/-- What is taken is the oldest input, and taking it changes nothing else. -/
theorem fetch_eq_some_iff (s : State) (i : Input) (t : State) :
    fetch s = some (i, t) ↔ ∃ rest, s.port = i :: rest ∧ t = { s with port := rest } := by
  unfold fetch
  split
  · simp_all
  · next j rest h => simp [h]; tauto

/-- Taking an input that was just presented gives the state before. -/
theorem fetch_present (w : CommandWord) (s : State) : fetch (present w s) = some (.command w, s) := rfl

/-- The illegal-command outcome, as one record update (60_exceptions.md R181). -/
theorem raiseIllegal_eq (c : IllegalCause) (s : State) :
    raiseIllegal c s =
      { s with
        err := true
        errcode := if s.err then s.errcode else c.code
        responses := s.responses ++ [(Response.ill c).word] } := rfl

/-- RESET forgets everything but what is still presented and what has been answered. -/
theorem resetEvent_eq (s : State) : resetEvent s = { State.reset with port := s.port, responses := s.responses } := rfl

/-! ## The register space -/

/-- A register write changes one configuration register, or nothing when the register is read-only. -/
theorem regWrite_cases (r : Reg) (v : Word32) (s : State) :
    (r = .attackSamples ∧ regWrite r v s = { s with attackSamples := v }) ∨
    (r = .holdSamples ∧ regWrite r v s = { s with holdSamples := v }) ∨
    (r = .decaySamples ∧ regWrite r v s = { s with decaySamples := v }) ∨
    (r = .forcedSamples ∧ regWrite r v s = { s with forcedDecaySamples := v }) ∨
    (r = .maxRetrig ∧ regWrite r v s = { s with maxRetriggers := v }) ∨
    (r.readOnly = true ∧ regWrite r v s = s) := by
  cases r <;> simp [regWrite, Reg.readOnly]

/-! ## Phase transitions -/

/-- Everything `Transition()` can do (40_envelope_state_machine.md R105 to R110). -/
theorem transition_cases (s : State) :
    (s.state = .idle ∧ transition s = s) ∨
    (s.state = .attack ∧ s.holdSamples ≠ 0#32 ∧ transition s = enterHold s) ∨
    (s.state = .attack ∧ s.holdSamples = 0#32 ∧ transition s = enterDecay s) ∨
    (s.state = .hold ∧ transition s = enterDecay s) ∨
    (s.state = .decay ∧ 0 < s.retriggerCount.toInt ∧ transition s = enterAttack (countRetrigger s)) ∨
    (s.state = .decay ∧ s.retriggerCount.toInt ≤ 0 ∧ transition s = enterIdle (countRetrigger s)) ∨
    (s.state = .forced ∧ transition s = enterAttack s) := by
  have hold_pos : s.holdSamples.toNat > 0 ↔ s.holdSamples ≠ 0#32 := by
    rw [← BitVec.toNat_inj.ne]; exact Nat.pos_iff_ne_zero
  unfold transition
  cases hs : s.state with
  | idle => simp
  | attack => by_cases h : s.holdSamples = 0#32 <;> simp [h, hold_pos]
  | hold => simp
  | decay => by_cases h : 0 < s.retriggerCount.toInt <;> simp [h] ; omega
  | forced => simp

/-- A transition touches only the working registers. -/
theorem transition_frame (s : State) :
    (transition s).attackSamples = s.attackSamples ∧ (transition s).holdSamples = s.holdSamples ∧
    (transition s).decaySamples = s.decaySamples ∧ (transition s).forcedDecaySamples = s.forcedDecaySamples ∧
    (transition s).maxRetriggers = s.maxRetriggers ∧ (transition s).inBlock = s.inBlock ∧
    (transition s).tail = s.tail ∧ (transition s).blockPos = s.blockPos ∧ (transition s).err = s.err ∧
    (transition s).errcode = s.errcode ∧ (transition s).port = s.port ∧
    (transition s).responses = s.responses := by
  rcases transition_cases s with ⟨_, h⟩ | ⟨_, _, h⟩ | ⟨_, _, h⟩ | ⟨_, h⟩ | ⟨_, _, h⟩ | ⟨_, _, h⟩ | ⟨_, h⟩ <;>
    rw [h] <;> simp [enterAttack, enterHold, enterDecay]

/-- When a transition is due (40_envelope_state_machine.md R105). -/
theorem transitionDue_iff (s : State) : transitionDue s = true ↔ s.state ≠ .idle ∧ s.remaining = 0#32 := by
  simp [transitionDue]

/-- The loop stops where no transition is due. -/
theorem settleWithin_of_not_due (n : Nat) (s : State) (h : transitionDue s = false) : settleWithin n s = s := by
  cases n with
  | zero => rfl
  | succ n => simp [settleWithin, h]

/-- One turn of the loop. -/
theorem settleWithin_succ_of_due (n : Nat) (s : State) (h : transitionDue s = true) :
    settleWithin (n + 1) s = settleWithin n (transition s) := by
  simp [settleWithin, h]

/-- The loop touches only the working registers. -/
theorem settleWithin_frame (n : Nat) (s : State) :
    (settleWithin n s).attackSamples = s.attackSamples ∧ (settleWithin n s).holdSamples = s.holdSamples ∧
    (settleWithin n s).decaySamples = s.decaySamples ∧
    (settleWithin n s).forcedDecaySamples = s.forcedDecaySamples ∧
    (settleWithin n s).maxRetriggers = s.maxRetriggers ∧ (settleWithin n s).inBlock = s.inBlock ∧
    (settleWithin n s).tail = s.tail ∧ (settleWithin n s).blockPos = s.blockPos ∧
    (settleWithin n s).err = s.err ∧ (settleWithin n s).errcode = s.errcode ∧
    (settleWithin n s).port = s.port ∧ (settleWithin n s).responses = s.responses := by
  induction n generalizing s with
  | zero => simp [settleWithin]
  | succ n ih =>
    by_cases h : transitionDue s = true
    · have := ih (transition s)
      have := transition_frame s
      rw [settleWithin_succ_of_due n s h]; simp_all
    · rw [settleWithin_of_not_due _ s (by simpa using h)]; simp

/-- The loop of one `SAMP` touches only the working registers. -/
theorem settle_frame (s : State) :
    (settle s).attackSamples = s.attackSamples ∧ (settle s).holdSamples = s.holdSamples ∧
    (settle s).decaySamples = s.decaySamples ∧ (settle s).forcedDecaySamples = s.forcedDecaySamples ∧
    (settle s).maxRetriggers = s.maxRetriggers ∧ (settle s).inBlock = s.inBlock ∧ (settle s).tail = s.tail ∧
    (settle s).blockPos = s.blockPos ∧ (settle s).err = s.err ∧ (settle s).errcode = s.errcode ∧
    (settle s).port = s.port ∧ (settle s).responses = s.responses :=
  settleWithin_frame (settleBound s) s

/-! ## Samples and blocks -/

/-- The block bookkeeping after a `SAMP`: the last sample closes the block, any other is counted. -/
theorem countSample_cases (P : Params) (s : State) :
    (isLastSample P s = true ∧ countSample P s = { s with inBlock := false, tail := false, blockPos := 0#16 }) ∨
    (isLastSample P s = false ∧ countSample P s = { s with blockPos := s.blockPos + 1#16 }) := by
  unfold countSample
  cases h : isLastSample P s <;> simp

/-- Everything a sample in an open block can do to the envelope. -/
theorem processSample_cases (P : Params) (x : Sample) (s : State) :
    (s.tail = true ∧ processSample P x s = (0#16, s)) ∨
    (s.tail = false ∧ (settle s).state = .idle ∧ processSample P x s = (0#16, startTail (settle s))) ∨
    (s.tail = false ∧ (settle s).state ≠ .idle ∧
      processSample P x s = (renderOutput P x (settle s), advance (settle s))) := by
  unfold processSample
  cases ht : s.tail
  · by_cases hi : (settle s).state = .idle <;> simp [hi]
  · simp

/-- Everything `SAMP` can do (41_phase_accumulator_lut_interp.md R132). -/
theorem sampleCommand_cases (P : Params) (x : Sample) (s : State) :
    (s.inBlock = false ∧ sampleCommand P x s = raiseIllegal .illNoBlk s) ∨
    (s.inBlock = true ∧ ∃ y t, processSample P x s = (y, t) ∧
      sampleCommand P x s = respond (.smp y (isLastSample P t)) (countSample P t)) := by
  unfold sampleCommand
  cases h : s.inBlock
  · simp
  · right; exact ⟨rfl, (processSample P x s).1, (processSample P x s).2, rfl, rfl⟩

/-- Everything `BSTART` can do (41_phase_accumulator_lut_interp.md R131). -/
theorem blockStart_cases (s : State) :
    (s.inBlock = true ∧ blockStart s = raiseIllegal .illInBlk s) ∨
    (s.inBlock = false ∧ blockStart s = respond (.blk (blockActive s)) (openBlock s)) := by
  unfold blockStart
  cases h : s.inBlock <;> simp

/-- Everything the trigger can do (40_envelope_state_machine.md R101). -/
theorem trigger_cases (s : State) :
    ((s.state = .idle ∨ s.forcedDecaySamples = 0#32) ∧
      trigger s = { enterAttack s with retriggerCount := s.maxRetriggers }) ∨
    (s.state ≠ .idle ∧ s.state ≠ .forced ∧ s.forcedDecaySamples ≠ 0#32 ∧ trigger s = enterForced s) ∨
    (s.state = .forced ∧ s.forcedDecaySamples ≠ 0#32 ∧ trigger s = s) := by
  unfold trigger
  cases hs : s.state <;> by_cases hf : s.forcedDecaySamples = 0#32 <;> simp [hf]

/-! ## The meanings and the step -/

/-- Everything `CFGW` can do (43_config_and_system.md R171). -/
theorem execCfgw_cases (a : RegAddr) (v : Word32) (s : State) :
    (Reg.ofAddr a = none ∧ execCfgw a v s = .next (raiseIllegal .illAddr s)) ∨
    (∃ r, Reg.ofAddr a = some r ∧ r.readOnly = true ∧ execCfgw a v s = .next (raiseIllegal .illRo s)) ∨
    (∃ r, Reg.ofAddr a = some r ∧ r.readOnly = false ∧
      execCfgw a v s = .next (respond .ack (regWrite r v s))) := by
  unfold execCfgw
  cases ha : Reg.ofAddr a with
  | none => simp
  | some r => cases hr : r.readOnly <;> simp [hr]

/-- Everything `CFGR` can do (43_config_and_system.md R172). -/
theorem execCfgr_cases (a : RegAddr) (s : State) :
    (Reg.ofAddr a = none ∧ execCfgr a s = .next (raiseIllegal .illAddr s)) ∨
    (∃ r, Reg.ofAddr a = some r ∧ execCfgr a s = .next (respond (.rd (regRead r s)) s)) := by
  unfold execCfgr
  cases ha : Reg.ofAddr a <;> simp

/-- Everything a step can do. -/
theorem step_cases (s : State) :
    (s.port = [] ∧ step s = .next s) ∨
    (∃ w i rest, s.port = .command w :: rest ∧ decode w = .ok i ∧ step s = exec i { s with port := rest }) ∨
    (∃ w c rest, s.port = .command w :: rest ∧ decode w = .error c ∧
      step s = .next (raiseIllegal c { s with port := rest })) ∨
    (∃ rest, (s.port = .reset :: rest ∨ ∃ w, s.port = .resetWith w :: rest) ∧
      step s = .next (resetEvent { s with port := rest })) := by
  unfold step fetch
  cases hp : s.port with
  | nil => simp
  | cons i rest =>
    cases i with
    | command w => cases hd : decode w <;> simp [hd]
    | reset => simp
    | resetWith w => simp

end Sys2Proof.Machine
end

