-- ==== Sys2Proof/Laws/PerInstr.lean ====
section
/-! SUPPORT. The per-instruction family: the word the encoder writes selects the instruction's row of the opcode
table by match and mask (30_encoding.md R75), for every operand value. -/

namespace Sys2Proof.Laws.EncodedWordSelectsRow

/-- The encoded word of `i` selects the row of `i`'s operation. -/
abbrev Statement (i : Instr) : Prop := (opRow i.op).selectedBy (encode i)

theorem nop : Statement .nop := by decide

theorem trig : Statement .trig := by decide

theorem bstart : Statement .bstart := by decide

theorem samp (x : Sample) : Statement (.samp x) := by
  refine BitVec.eq_of_getLsbD_eq fun j hj => ?_
  rw [show encode _ = commandWord _ _ _ from rfl, BitVec.getLsbD_and, commandWord_getLsbD]
  simp only [opRow, Instr.op, Op.code]
  interval_cases j <;> simp

theorem cfgw (a : RegAddr) (v : Word32) : Statement (.cfgw a v) := by
  refine BitVec.eq_of_getLsbD_eq fun j hj => ?_
  rw [show encode _ = commandWord _ _ _ from rfl, BitVec.getLsbD_and, commandWord_getLsbD]
  simp only [opRow, Instr.op, Op.code]
  interval_cases j <;> simp

theorem cfgr (a : RegAddr) : Statement (.cfgr a) := by
  refine BitVec.eq_of_getLsbD_eq fun j hj => ?_
  rw [show encode _ = commandWord _ _ _ from rfl, BitVec.getLsbD_and, commandWord_getLsbD]
  simp only [opRow, Instr.op, Op.code]
  interval_cases j <;> simp

end Sys2Proof.Laws.EncodedWordSelectsRow
end

