-- ==== Sys2Proof/Tests/Slice0.lean ====
section
/-! SUPPORT. The model's own tests: ill-formed terms refused, decoding by words written out, one step per operation on
vectors of 95_test_vectors.md, and for every statement with hypotheses a witness that meets them. -/

open Sys2Proof Sys2Proof.Machine Sys2Proof.Claims

namespace Sys2Proof.Tests

/-! ## Helpers -/

/-- The table `LIN` of 95_test_vectors.md, with `BLOCK_LEN = 8`. -/
def lin : Params := { blockLenPred := 7, table := fun i => ⟨256 * i.val, by omega⟩ }

/-- The table `SQ` of 95_test_vectors.md, with `BLOCK_LEN = 8`. -/
def sq : Params := { blockLenPred := 7, table := fun i => ⟨i.val * i.val, by nlinarith [i.isLt]⟩ }

/-- The working registers of table 2.2 of 95_test_vectors.md. -/
def marked (p : Phase) (forced : Word32) : State :=
  { State.reset with
    state := p, remaining := 3#32, phaseAccumulator := 0x12345678#32, phaseIncrement := 99#32,
    retriggerCount := 1#32, gainOffset := 65536#32, attackSamples := 10#32, holdSamples := 3#32,
    decaySamples := 7#32, forcedDecaySamples := forced, maxRetriggers := 2#32 }

/-- An open block, `n` samples before the end of a phase. -/
def playing (p : Phase) (n : Word32) : State :=
  { marked p 5#32 with remaining := n, inBlock := true, gainOffset := 0#32, gainMultiplier := 65536#32 }

/-- The state `s` facing one command word. -/
def facing (w : CommandWord) (s : State) : State := { s with port := [.command w] }

/-- The next state of an outcome. -/
def after : Host.Outcome State Fault Refusal → State
  | .next s => s
  | _ => State.reset

/-! ## Well-formedness: the address checks (30_encoding.md R75) -/

theorem test_cfgw_reserved_address_is_ill_formed : (Instr.cfgw 5#4 0#32).wellFormed = false := by decide
theorem test_cfgw_read_only_address_is_ill_formed : (Instr.cfgw 8#4 0#32).wellFormed = false := by decide
theorem test_cfgr_reserved_address_is_ill_formed : (Instr.cfgr 7#4).wellFormed = false := by decide
theorem test_boundary_addresses_are_well_formed :
    (Instr.cfgw 4#4 0#32).wellFormed = true ∧ (Instr.cfgr 4#4).wellFormed = true ∧
      (Instr.cfgr 8#4).wellFormed = true ∧ (Instr.cfgr 15#4).wellFormed = true := by decide

/-! ## Decoding, from words written out field by field: op, addr, data (30_encoding.md R70 to R73) -/

theorem test_decode_nop : decode (0b0000#4 ++ 0b0000#4 ++ 0#32) = .ok .nop := by decide
theorem test_decode_trig : decode (0b0001#4 ++ 0b0000#4 ++ 0#32) = .ok .trig := by decide
theorem test_decode_bstart : decode (0b0010#4 ++ 0b0000#4 ++ 0#32) = .ok .bstart := by decide
theorem test_decode_samp :
    decode (0b0011#4 ++ 0b0000#4 ++ 0#16 ++ 0b1000000000000001#16) = .ok (.samp 0x8001#16) := by decide
theorem test_decode_cfgw :
    decode (0b0100#4 ++ 0b0100#4 ++ 0x80000001#32) = .ok (.cfgw 4#4 0x80000001#32) := by decide
theorem test_decode_cfgr : decode (0b0101#4 ++ 0b1111#4 ++ 0#32) = .ok (.cfgr 15#4) := by decide

/-- The rows of table 2.1 of 95_test_vectors.md that name a cause. -/
theorem test_decode_illegal_words :
    decode 0x6000000000#40 = .error .illOp ∧ decode 0xF000000000#40 = .error .illOp ∧
    decode 0xFFFFFFFFFF#40 = .error .illOp ∧ decode 0x0000000001#40 = .error .illRsvd ∧
    decode 0x0100000000#40 = .error .illRsvd ∧ decode 0x2F00000000#40 = .error .illRsvd ∧
    decode 0x3100000000#40 = .error .illRsvd ∧ decode 0x3100010000#40 = .error .illRsvd ∧
    decode 0x4700000007#40 = .error .illAddr ∧ decode 0x4F00000001#40 = .error .illRo ∧
    decode 0x5500000001#40 = .error .illRsvd := by decide

theorem test_decode_table_word :
    decodeTableWord 40 0x3000007FFF = some (.samp 0x7FFF#16) ∧ decodeTableWord 40 0x3000010000 = none := by decide

theorem test_fetch_word_runs_next : (after (step (State.reset.withFetchWord 40 0x1000000000))).state = .attack := by
  decide

/-! ## One step per operation -/

/-- R170's worked example. -/
theorem test_nop_answers : after (step (facing 0x0000000000#40 (marked .hold 5#32))) =
    { marked .hold 5#32 with responses := [0x000000000#36] } := by decide

/-- The seventh row of table 2.2: FORCED is entered and the count stays. -/
theorem test_trig_enters_forced : after (execTrig (marked .attack 5#32)) =
    { marked .forced 5#32 with
      remaining := 5#32, phaseAccumulator := 0#32, phaseIncrement := 858993459#32, retriggerCount := 1#32,
      gainMultiplier := 0xFFFF0000#32, responses := [0#36] } := by decide

/-- The fifth row of table 2.2: FORCED with forced decay disabled restarts. -/
theorem test_trig_restarts_when_forced_is_disabled : after (execTrig (marked .forced 0#32)) =
    { marked .attack 0#32 with
      remaining := 10#32, phaseAccumulator := 0#32, phaseIncrement := 429496729#32, retriggerCount := 2#32,
      gainMultiplier := 65536#32, gainOffset := 0#32, responses := [0#36] } := by decide

/-- R131: a running envelope opens a block. -/
theorem test_bstart_opens : after (execBstart (marked .decay 5#32)) =
    { marked .decay 5#32 with inBlock := true, responses := [0x100000001#36] } := by decide

/-- R131: in IDLE the block is skipped. -/
theorem test_bstart_skips : after (execBstart (marked .idle 5#32)) =
    { marked .idle 5#32 with responses := [0x100000000#36] } := by decide

/-- Row 1 of the `SQ` table of scenario S-S1: x = -32768, c = 655, y = -328. -/
theorem test_samp_renders :
    (sampleCommand sq 0x8000#16 { playing .attack 9#32 with phaseAccumulator := 0x19999999#32 }).responses =
      [0x20000FEB8#36] := by decide

/-- R107, R132 and the third row of table 2.4: HOLD to DECAY first, then its first sample at full gain (R166). -/
theorem test_samp_takes_the_transition_first :
    let t := sampleCommand lin 0x7FFF#16 (playing .hold 0#32)
    (t.state, t.remaining, t.phaseAccumulator, t.responses) = (.decay, 6#32, 0x24924924#32, [0x200007FFF#36]) := by
  decide

/-- R171's worked example. -/
theorem test_cfgw_writes : after (step (facing 0x420000000A#40 (marked .hold 5#32))) =
    { marked .hold 5#32 with decaySamples := 10#32, responses := [0#36] } := by decide

/-- Table 2.1: a write to `STATUS` is `ILL_RO`. -/
theorem test_cfgw_read_only : after (step (facing 0x4800000000#40 (marked .hold 5#32))) =
    { marked .hold 5#32 with err := true, errcode := 4#3, responses := [0xF00000004#36] } := by decide

/-- Section 2.1 of 95_test_vectors.md: `STATUS` after `ILL_INBLK` in an open block in ATTACK. -/
theorem test_cfgr_status :
    (after (execCfgr 8#4 { playing .attack 3#32 with err := true, errcode := 6#3 })).responses =
      [0x3000001A9#36] := by decide

/-- R35 and R36: a read changes nothing but the answers. -/
theorem test_cfgr_reads : after (execCfgr 11#4 (marked .hold 5#32)) =
    { marked .hold 5#32 with responses := [0x300000063#36] } := by decide

/-- Table 2.4: the last row but three, the count wraps after the IDLE outcome. -/
theorem test_decay_count_wraps :
    (transition { marked .decay 5#32 with retriggerCount := 0x80000000#32 }).retriggerCount = 0x7FFFFFFF#32 ∧
      (transition { marked .decay 5#32 with retriggerCount := 0x80000000#32 }).state = .idle := by decide

/-! ## Witnesses: states, words and operands that meet the hypotheses of each statement -/

theorem test_witness_decode_of_encode :
    (Instr.samp 0x8000#16).WellFormed ∧ (Instr.cfgw 4#4 0xFFFFFFFF#32).WellFormed ∧ (Instr.cfgr 15#4).WellFormed := by
  decide

theorem test_witness_encode_of_decode : decode 0x44FFFFFFFF#40 = .ok (.cfgw 4#4 0xFFFFFFFF#32) := by decide

theorem test_witness_decode_checks :
    decodeCause 0x5F00000000#40 = 0 ∧ decodeCause 0x6000000000#40 = 1 ∧ decodeCause 0x3000010000#40 = 2 ∧
      decodeCause 0x5500000001#40 = 2 ∧ decodeCause 0x4500000000#40 = 3 ∧ decodeCause 0x5700000000#40 = 3 ∧
      decodeCause 0x4800000000#40 = 4 ∧ (marked .attack 5#32).inBlock = false ∧
      (playing .attack 3#32).inBlock = true := by decide

theorem test_witness_opcode_rows :
    6 ≤ opNumber 0x6000000000#40 ∧ decode 0x300000FFFF#40 = .ok (.samp 0xFFFF#16) ∧
      decode 0x4400000000#40 = .ok (.cfgw 4#4 0#32) ∧ decode 0x5800000000#40 = .ok (.cfgr 8#4) := by decide

theorem test_witness_operands :
    decode 0x3000007FFF#40 = .ok (.samp 0x7FFF#16) ∧ decode 0x3000008000#40 = .ok (.samp 0x8000#16) ∧
      decode 0x44FFFFFFFF#40 = .ok (.cfgw 4#4 0xFFFFFFFF#32) ∧ decode 0x5F00000000#40 = .ok (.cfgr 15#4) := by decide

theorem test_witness_responses_read_back :
    Response.ofWord 0x000000000#36 = some .ack ∧ Response.ofWord 0x100000001#36 = some (.blk true) ∧
      Response.ofWord 0x20001FFFF#36 = some (.smp 0xFFFF#16 true) ∧
      Response.ofWord 0x3FFFFFFFF#36 = some (.rd 0xFFFFFFFF#32) ∧
      Response.ofWord 0xF00000006#36 = some (.ill .illInBlk) := by decide

theorem test_witness_assembled_words :
    (-32768 : Int) ≤ -32768 ∧ (32767 : Int) ≤ 32767 ∧ (-2147483648 : Int) ≤ 4294967295 ∧ (4#4).toNat ≤ 4 ∧
      8 ≤ (8#4).toNat := by decide

theorem test_witness_step_runs :
    (facing 0x1000000000#40 State.reset).port = [.command 0x1000000000#40] ∧ decode 0x1000000000#40 = .ok .trig := by
  decide

theorem test_witness_waits : (marked .hold 5#32).port = [] := by decide

/-- Every clause of `EveryCommandAnswersOnce`: an illegal word, `NOP`, `BSTART` in and outside a block, `SAMP` in and
outside a block, `CFGR`. -/
theorem test_witness_every_command_answers :
    (∀ w : CommandWord, (facing w (playing .attack 3#32)).port = .command w :: []) ∧
    decodeCause 0x6000000000#40 ≠ 0 ∧ decodeCause 0x0000000000#40 = 0 ∧ opNumber 0x0000000000#40 = 0 ∧
    decodeCause 0x2000000000#40 = 0 ∧ opNumber 0x2000000000#40 = 2 ∧ opNumber 0x3000000000#40 = 3 ∧
    opNumber 0x5800000000#40 = 5 ∧ (playing .attack 3#32).inBlock = true ∧ (marked .idle 5#32).inBlock = false ∧
    (marked .idle 5#32).state = .idle ∧ (marked .decay 5#32).state ≠ .idle :=
  ⟨fun _ => rfl, by decide⟩

theorem test_witness_one_input :
    ∃ t, (facing 0x1000000000#40 State.reset).port = Input.command 0x1000000000#40 :: [] ∧
      step (facing 0x1000000000#40 State.reset) = .next t := ⟨_, rfl, rfl⟩

theorem test_witness_responses_do_not_feed_back : ∃ t, step (facing 0x5800000000#40 State.reset) = .next t := ⟨_, rfl⟩

theorem test_witness_illegal_commands :
    decodeCause 0x4800000000#40 ≠ 0 ∧
    (decodeCause 0x3000008000#40 = 0 ∧ opNumber 0x3000008000#40 = 3 ∧
      (facing 0x3000008000#40 (marked .hold 5#32)).inBlock = false) ∧
    (decodeCause 0x2000000000#40 = 0 ∧ opNumber 0x2000000000#40 = 2 ∧
      (facing 0x2000000000#40 (playing .hold 3#32)).inBlock = true) := by decide

theorem test_witness_errors_never_disturb :
    SameButErrors (facing 0x2000000000#40 (marked .hold 5#32))
      { facing 0x2000000000#40 (marked .hold 5#32) with err := true, errcode := 3#3, responses := [0xF00000003#36] } ∧
    decode 0xFFFFFFFFFF#40 = .error .illOp ∧
    (opNumber 0x3000008000#40 = 3 ∧ (facing 0x3000008000#40 (marked .hold 5#32)).inBlock = false) ∧
    (opNumber 0x2000000000#40 = 2 ∧ (facing 0x2000000000#40 (playing .hold 3#32)).inBlock = true) := by decide

theorem test_witness_errors_are_sticky :
    (∃ t, step { facing 0x4800000000#40 State.reset with err := true, errcode := 1#3 } = .next t) ∧
    resetIsNext { facing 0x4800000000#40 State.reset with err := true, errcode := 1#3 } = false ∧
    resetIsNext { State.reset with port := [.reset], err := true, errcode := 1#3 } = true ∧
    resetIsNext { State.reset with port := [.resetWith 0#40], err := true, errcode := 1#3 } = true :=
  ⟨⟨_, rfl⟩, by decide⟩

theorem test_witness_reset_event :
    ({ playing .hold 3#32 with port := [.reset] } : State).port = .reset :: [] ∧
    ({ playing .hold 3#32 with port := [.resetWith 0x1000000000#40] } : State).port =
      .resetWith 0x1000000000#40 :: [] := by decide

theorem test_witness_commands_after_reset : (4#4 : RegAddr).toNat ≤ 4 ∧ 8 ≤ (8#4 : RegAddr).toNat := by decide

theorem test_witness_trig_cases :
    ((marked .idle 5#32).state = .idle ∧ (marked .forced 0#32).forcedDecaySamples.toNat = 0) ∧
    ((marked .decay 1#32).state = .decay ∧ (marked .decay 1#32).forcedDecaySamples.toNat ≠ 0) ∧
    ((marked .forced 1#32).state = .forced ∧ (marked .forced 1#32).forcedDecaySamples.toNat ≠ 0) := by decide

theorem test_witness_trig_forgets :
    (marked .idle 5#32).state = .idle ∧
    ({ marked .idle 5#32 with retriggerCount := 0xFFFFFFFF#32, gainMultiplier := 0xFFFF0000#32 } : State) ≠
      marked .idle 5#32 ∧
    SameConfig (marked .idle 5#32)
      { marked .idle 5#32 with retriggerCount := 0xFFFFFFFF#32, gainMultiplier := 0xFFFF0000#32 } ∧
    SameFraming (marked .idle 5#32)
      { marked .idle 5#32 with retriggerCount := 0xFFFFFFFF#32, gainMultiplier := 0xFFFF0000#32 } ∧
    SameErrors (marked .idle 5#32)
      { marked .idle 5#32 with retriggerCount := 0xFFFFFFFF#32, gainMultiplier := 0xFFFF0000#32 } := by decide

theorem test_witness_coeffs : (65536 : Nat) ≤ 65536 ∧ (0 : Nat) ≤ 65536 ∧
    gain 0xFFFF0000#32 0x00010000#32 0 = ((65536 : Nat) : Int) ∧ gain 0xFFFF0000#32 0x00010000#32 65536 = ((0 : Nat) : Int) := by
  decide

theorem test_witness_increment :
    (0#32 : Word32).toNat ≤ 1 ∧ (1#32 : Word32).toNat ≤ 1 ∧ 2 ≤ (2#32 : Word32).toNat ∧
      2 ^ 24 < (16777217#32 : Word32).toNat := by decide

theorem test_witness_sweep :
    1 ≤ (1#32 : Word32).toNat ∧ 0 < (1#32 : Word32).toNat ∧ 9 < (10#32 : Word32).toNat ∧ 8 ≤ 9 ∧
      (8#32 : Word32).toNat = 2 ^ 3 := by decide

theorem test_witness_sweep_no_power : 1 ≤ (3#32 : Word32).toNat ∧ ¬ ∃ k : Nat, (3#32 : Word32).toNat = 2 ^ k := by
  refine ⟨by decide, fun ⟨k, hk⟩ => ?_⟩
  rcases k with _ | _ | k
  · simp at hk
  · simp at hk
  · rw [pow_succ] at hk
    have : 0 < 2 ^ k := Nat.two_pow_pos k
    simp only [BitVec.toNat_ofNat, pow_succ] at hk
    omega

theorem test_witness_finished_phase : ∀ p ∈ [Phase.attack, Phase.hold, Phase.decay, Phase.forced],
    (playing p 0#32).inBlock = true ∧ (playing p 0#32).tail = false ∧ (playing p 0#32).remaining = 0#32 ∧
      (playing p 0#32).state = p := by decide

/-- Both outcomes at the end of a DECAY, at the counts 1 and 0. -/
theorem test_witness_finished_decay :
    0 < (playing .decay 0#32).retriggerCount.toInt ∧
    ({ playing .decay 0#32 with retriggerCount := 0#32 } : State).retriggerCount.toInt ≤ 0 ∧
    ({ playing .decay 0#32 with retriggerCount := 0#32 } : State).state = .decay := by decide

theorem test_witness_while_loop : 2 * (playing .decay 0#32).retriggerCount.toInt.toNat + 3 ≤ 5 ∧
    transitionDue (playing .decay 0#32) = true := by decide

theorem test_witness_loop_leaves : LoopLeaves (marked .hold 5#32) (marked .hold 5#32) :=
  .done _ (.inr (by decide))

theorem test_witness_zero_length :
    let s := { playing .forced 0#32 with attackSamples := 0#32, holdSamples := 0#32, decaySamples := 0#32 }
    s.state ≠ .idle ∧ s.remaining = 0#32 ∧ s.attackSamples = 0#32 ∧ s.holdSamples = 0#32 ∧ s.decaySamples = 0#32 := by
  decide

/-- The same with a negative count, at its least value. -/
theorem test_witness_zero_length_negative_count :
    let s := { playing .decay 0#32 with
      attackSamples := 0#32, holdSamples := 0#32, decaySamples := 0#32, retriggerCount := 0x80000000#32 }
    s.state ≠ .idle ∧ s.remaining = 0#32 ∧ s.attackSamples = 0#32 ∧ s.holdSamples = 0#32 ∧ s.decaySamples = 0#32 ∧
      ¬ 0 ≤ s.retriggerCount.toInt := by
  decide

theorem test_witness_bstart :
    (playing .hold 3#32).inBlock = true ∧
    ((marked .idle 5#32).inBlock = false ∧ (marked .idle 5#32).state = .idle) ∧
    ((marked .hold 5#32).inBlock = false ∧ (marked .hold 5#32).state ≠ .idle) := by decide

theorem test_witness_samp_renders :
    (playing .attack 1#32).inBlock = true ∧ (playing .attack 1#32).tail = false ∧
      (playing .attack 1#32).state ≠ .idle ∧ (playing .attack 1#32).remaining ≠ 0#32 := by decide

theorem test_witness_samp_pseudocode :
    (marked .attack 5#32).inBlock = false ∧
    ({ playing .idle 0#32 with tail := true } : State).tail = true ∧ (playing .attack 0#32).tail = false := by decide

theorem test_witness_tail_last :
    let s := { playing .idle 0#32 with tail := true, blockPos := BitVec.ofNat 16 (Config.params.blockLen - 1) }
    s.inBlock = true ∧ s.tail = true ∧ s.blockPos.toNat = Config.params.blockLen - 1 ∧
      ∃ t, exec (.samp 5#16) s = .next t :=
  ⟨rfl, rfl, Params.blockLen_pred_toNat _, _, rfl⟩

/-- A position that is the last of no block, whatever `BLOCK_LEN` is. -/
theorem test_witness_tail_not_last :
    let s := { playing .idle 0#32 with tail := true, blockPos := 65535#16 }
    s.inBlock = true ∧ s.tail = true ∧ s.blockPos.toNat ≠ Config.params.blockLen - 1 ∧
      ∃ t, exec (.samp 5#16) s = .next t := by
  refine ⟨rfl, rfl, ?_, _, rfl⟩
  have := Params.blockLen_le Config.params
  show (65535#16 : BitVec 16).toNat ≠ _
  simp only [BitVec.toNat_ofNat]
  omega

theorem test_witness_tail_other_commands :
    ∃ t, exec .trig { playing .idle 0#32 with tail := true } = .next t := ⟨_, rfl⟩

theorem test_witness_samples_inside_a_phase :
    let s := { playing .attack 1#32 with
      blockPos := BitVec.ofNat 16 (Config.params.blockLen - 1), port := [.command (encode (.samp 7#16)), .reset] }
    s.inBlock = true ∧ s.tail = false ∧ s.state ≠ .idle ∧ [7#16].length ≤ s.remaining.toNat ∧
      s.blockPos.toNat < Config.params.blockLen ∧ s.blockPos.toNat + [7#16].length ≤ Config.params.blockLen ∧
      s.port = [7#16].map (fun x => Input.command (encode (.samp x))) ++ [.reset] := by
  have h := Params.blockLen_pred_toNat Config.params
  have hpos := Params.blockLen_pos Config.params
  refine ⟨rfl, rfl, by decide, by decide, ?_, ?_, rfl⟩
  · show (BitVec.ofNat 16 (Config.params.blockLen - 1)).toNat < _
    omega
  · show (BitVec.ofNat 16 (Config.params.blockLen - 1)).toNat + 1 ≤ _
    omega

theorem test_witness_update_block :
    (marked .attack 5#32).inBlock = false ∧ (marked .attack 5#32).state ≠ .idle ∧
      (List.replicate 8 (7#16 : Sample)).length = lin.blockLen ∧ (marked .idle 5#32).inBlock = false ∧
      (marked .idle 5#32).state = .idle := by decide

/-- A flat weight, and a rising segment at its last weight. -/
theorem test_witness_curve :
    blendWeight 0xFF000000#32 = 0 ∧ tableLow sq 0xFFFFFF00#32 < tableHigh sq 0xFFFFFF00#32 := by decide

theorem test_witness_blend : (1 : Nat) ≤ 65536 ∧ (0 : Nat) ≤ 65536 ∧ (1 : Nat) < 65536 ∧ blend 1 0 1 = 0 := by decide

theorem test_witness_gain : ∀ p ∈ [Phase.attack, Phase.hold, Phase.decay, Phase.forced],
    CoeffsMatchPhase (match p with
      | .hold => enterHold (marked p 5#32)
      | .decay => enterDecay (marked p 5#32)
      | .forced => enterForced (marked p 5#32)
      | _ => enterAttack (marked p 5#32)) := by
  intro p hp
  simp only [List.mem_cons, List.not_mem_nil, or_false] at hp
  rcases hp with rfl | rfl | rfl | rfl <;> exact rfl

theorem test_witness_scaling : (0 : Int) ≤ 65536 ∧ (65536 : Int) ≤ 65536 ∧ (0 : Int) ≤ 0 := by decide

/-- The invariant of a playing block, whatever `BLOCK_LEN` is. -/
theorem test_witness_invariant : Inv { enterAttack (marked .idle 5#32) with inBlock := true } ∧
    ({ enterAttack (marked .idle 5#32) with inBlock := true } : State).inBlock = true := by
  refine ⟨⟨rfl, ⟨fun _ => by decide, fun _ => rfl, ?_, fun h => ?_⟩, fun _ => rfl, fun h => ?_⟩, rfl⟩
  · exact Params.blockLen_pos Config.params
  · exact absurd h (by decide)
  · exact absurd h (by decide)

theorem test_witness_first_sample :
    lin.TableEndpoints ∧ CoeffsMatchPhase (enterAttack State.reset) ∧
      (enterAttack State.reset).phaseAccumulator = 0#32 ∧ CoeffsMatchPhase (enterForced State.reset) ∧
      (enterForced State.reset).phaseAccumulator = 0#32 :=
  ⟨by decide, rfl, rfl, rfl, rfl⟩

/-- `CFGW` and `CFGR` at the boundary addresses of each clause. -/
theorem test_witness_config_clauses :
    (0#4 : RegAddr).toNat = 0x0 ∧ (4#4 : RegAddr).toNat = 0x4 ∧ (5#4 : RegAddr).toNat = 0x5 ∧
      (7#4 : RegAddr).toNat = 0x7 ∧ (8#4 : RegAddr).toNat = 0x8 ∧ mapRead 0x4 State.reset = some 0 ∧
      mapRead 0x5 State.reset = none ∧ mapRead 0x7 State.reset = none ∧ mapRead 0xF State.reset = some 0 := by decide

theorem test_witness_written_register_reads_back :
    (4#4 : RegAddr).toNat ≤ 4 ∧ ∃ t, exec (.cfgw 4#4 9#32) State.reset = .next t := ⟨by decide, _, rfl⟩

theorem test_witness_operation_groups :
    (Instr.cfgw 4#4 9#32).WellFormed ∧ ∃ t, exec (.cfgw 4#4 9#32) (marked .hold 5#32) = .next t := ⟨by decide, _, rfl⟩

theorem test_witness_idle_is_left :
    step (facing 0x1000000000#40 State.reset) = .next (after (step (facing 0x1000000000#40 State.reset))) ∧
    (facing 0x1000000000#40 State.reset).state = .idle ∧
    (after (step (facing 0x1000000000#40 State.reset))).state ≠ .idle ∧
    step { playing .hold 3#32 with port := [.reset] } = .next (after (step { playing .hold 3#32 with port := [.reset] })) ∧
    (after (step { playing .hold 3#32 with port := [.reset] })).state = .idle :=
  ⟨rfl, by decide, by decide, rfl, by decide⟩

theorem test_witness_idle_is_silent :
    (marked .idle 5#32).state = .idle ∧ (Instr.samp 9#16) ≠ .trig ∧
      ∃ t, exec (.samp 9#16) (marked .idle 5#32) = .next t := ⟨by decide, by decide, _, rfl⟩

theorem test_witness_step_keeps_invariants :
    (Inv (facing 0x1000000000#40 State.reset) ∧ SweepOk (facing 0x1000000000#40 State.reset)) ∧
      ∃ t, step (facing 0x1000000000#40 State.reset) = .next t := by
  refine ⟨⟨⟨List.mem_cons_self, ⟨fun h => ?_, fun h => ?_, ?_, fun _ => rfl⟩, fun _ => rfl, fun h => ?_⟩, .inl rfl⟩, _, rfl⟩
  · exact absurd h (by decide)
  · exact absurd h (by decide)
  · exact Params.blockLen_pos Config.params
  · exact absurd h (by decide)

/-- In a phase of duration 10 after 3 samples. -/
theorem test_witness_sweep_state :
    SweepOk { marked .decay 5#32 with
      remaining := 7#32, phaseIncrement := 0x19999999#32, phaseAccumulator := 0x4CCCCCCB#32 } :=
  .inr ⟨10#32, 3, by decide⟩

theorem test_witness_reachable : Reachable (after (step (facing 0x1000000000#40 State.reset))) :=
  .step _ _ (.start [.command 0x1000000000#40]) rfl

theorem test_witness_entry_has_samples :
    ({ marked .attack 5#32 with remaining := 0#32 } : State).state ≠ .hold ∧
    (transition { marked .attack 5#32 with remaining := 0#32 }).state = .hold ∧
    exec .trig (marked .hold 1#32) = .next (after (exec .trig (marked .hold 1#32))) ∧
    (marked .hold 1#32).state ≠ .forced ∧ (after (exec .trig (marked .hold 1#32))).state = .forced :=
  ⟨by decide, by decide, rfl, by decide, by decide⟩

end Sys2Proof.Tests
end

section
/-! The record after reset, the register space seen through `CFGR` and `CFGW`, and the fields of `STATUS`
(10_state.md R35, R37, R42). -/

open Sys2Proof Sys2Proof.Machine Sys2Proof.Claims

namespace Sys2Proof.Machine

/-! ## Responses and the illegal outcome in numbers -/

/-- A response word as a number: the kind above the 32-bit payload (30_encoding.md R74). -/
theorem responseWord_eq_ofNat (k : BitVec 4) (p : Word32) :
    responseWord k p = BitVec.ofNat 36 (k.toNat * 2 ^ 32 + p.toNat) := by
  refine BitVec.eq_of_toNat_eq ?_
  have hk := k.isLt
  have hp := p.isLt
  rw [responseWord, BitVec.toNat_append, ← Nat.shiftLeft_add_eq_or_of_lt hp, Nat.shiftLeft_eq, BitVec.toNat_ofNat]
  omega

/-- Answering `RD` in numbers (30_encoding.md R74). -/
theorem respond_rd_eq_answered (v : Word32) (s : State) :
    respond (.rd v) s = answered (0x300000000 + v.toNat) s := by
  simp [respond, answered, Response.word, responseWord_eq_ofNat]

/-- The illegal-command outcome in numbers (60_exceptions.md R181). -/
theorem raiseIllegal_eq_illegal (c : IllegalCause) (s : State) : raiseIllegal c s = illegal c.code.toNat s := by
  have payload_toNat : (c.code.setWidth 32).toNat = c.code.toNat := BitVec.toNat_setWidth_of_le (by decide)
  simp [raiseIllegal_eq, illegal, Response.word, responseWord_eq_ofNat, payload_toNat]

/-! ## `CFGR` and `CFGW` at the address of a register -/

/-- `CFGR` at a register's address answers its value and changes nothing else (43_config_and_system.md R172). -/
theorem exec_cfgr_addr (r : Reg) (s : State) :
    exec (.cfgr r.addr) s = .next (answered (0x300000000 + (regRead r s).toNat) s) := by
  rw [← respond_rd_eq_answered]
  obtain ⟨hnone, -⟩ | ⟨r', hr', hexec⟩ := execCfgr_cases r.addr s
  · simp [Reg.ofAddr_addr] at hnone
  · obtain rfl : r = r' := by simpa [Reg.ofAddr_addr] using hr'
    exact hexec

/-- `CFGW` at a read-only register's address is `ILL_RO`, whatever the value (43_config_and_system.md R171). -/
theorem exec_cfgw_addr_of_readOnly {r : Reg} (h : r.readOnly = true) (v : Word32) (s : State) :
    exec (.cfgw r.addr v) s = .next (illegal 4 s) := by
  obtain ⟨hnone, -⟩ | ⟨-, -, -, hexec⟩ | ⟨r', hr', hwritable, -⟩ := execCfgw_cases r.addr v s
  · simp [Reg.ofAddr_addr] at hnone
  · exact hexec.trans (congrArg _ (raiseIllegal_eq_illegal .illRo s))
  · obtain rfl : r = r' := by simpa [Reg.ofAddr_addr] using hr'
    simp [h] at hwritable

/-! ## The `STATUS` word -/

/-- The bits of `STATUS` (10_state.md R35). -/
theorem statusWord_getLsbD (s : State) (j : Nat) :
    (statusWord s).getLsbD j =
      if j < 3 then s.state.code.getLsbD j
      else if j = 3 then s.inBlock
      else if j = 4 then s.tail
      else if j = 5 then s.err
      else s.errcode.getLsbD (j - 6) := by
  have state_high (h : 3 ≤ j) : s.state.code.getLsbD j = false := BitVec.getLsbD_of_ge _ _ h
  have errcode_high (h : 9 ≤ j) : s.errcode.getLsbD (j - 6) = false := BitVec.getLsbD_of_ge _ _ (by omega)
  simp only [statusWord, BitVec.getLsbD_or, BitVec.getLsbD_shiftLeft, BitVec.getLsbD_setWidth, BitVec.getLsbD_ofBool]
  grind

/-- The `state` field of `STATUS` (10_state.md R35). -/
theorem statusWord_state (s : State) : (statusWord s).extractLsb' 0 3 = s.state.code := by
  refine BitVec.eq_of_getLsbD_eq fun j hj => ?_
  simp [statusWord_getLsbD, hj]

/-- The `errcode` field of `STATUS` (10_state.md R35). -/
theorem statusWord_errcode (s : State) : (statusWord s).extractLsb' 6 3 = s.errcode := by
  refine BitVec.eq_of_getLsbD_eq fun j hj => ?_
  rw [BitVec.getLsbD_extractLsb', statusWord_getLsbD]
  grind

/-- The bits of `STATUS` above `errcode` read as 0 (10_state.md R35). -/
theorem statusWord_high (s : State) : (statusWord s).extractLsb' 9 23 = 0#23 := by
  refine BitVec.eq_of_getLsbD_eq fun j hj => ?_
  have errcode_high : s.errcode.getLsbD (9 + j - 6) = false := BitVec.getLsbD_of_ge _ _ (by omega)
  rw [BitVec.getLsbD_extractLsb', statusWord_getLsbD, BitVec.getLsbD_zero]
  grind

/-! ## The obligations -/

/-- Settles O19: each field of the reset record is written out in 10_state.md R42. -/
theorem resetValues : Obligations.ResetValues :=
  ⟨rfl, rfl, rfl, rfl, rfl, rfl, rfl, rfl, rfl, rfl, rfl, rfl, rfl, rfl, rfl, rfl, rfl⟩

/-- Settles O47: the word read is `statusWord`, whose fields are read off its bits; `STATUS` is read-only. -/
theorem statusFieldsStandInTheirPlaces : Obligations.StatusFieldsStandInTheirPlaces := by
  intro s
  refine ⟨⟨statusWord s, exec_cfgr_addr .status s, ?_, ?_, ?_, ?_, statusWord_errcode s, statusWord_high s⟩,
    fun v => exec_cfgw_addr_of_readOnly (r := .status) rfl v s⟩
  · rw [statusWord_state]
    cases s.state <;> rfl
  · rw [statusWord_getLsbD]; rfl
  · rw [statusWord_getLsbD]; rfl
  · rw [statusWord_getLsbD]; rfl

end Sys2Proof.Machine
end

section
/-! The decoder: its fields in numbers, what it can answer, and the two readings of it that 30_encoding.md gives,
the ordered checks of R77 and the match and mask rows of R75. -/

open Sys2Proof Sys2Proof.Machine Sys2Proof.Claims

namespace Sys2Proof

/-! ## The fields of a command word in numbers (30_encoding.md R70) -/

@[simp] theorem opField_toNat (w : CommandWord) : (opField w).toNat = opNumber w := by
  rw [opField, BitVec.extractLsb'_toNat, Nat.shiftRight_eq_div_pow, opNumber]
  omega

@[simp] theorem addrField_toNat (w : CommandWord) : (addrField w).toNat = addrNumber w := by
  rw [addrField, BitVec.extractLsb'_toNat, Nat.shiftRight_eq_div_pow, addrNumber]

@[simp] theorem dataField_toNat (w : CommandWord) : (dataField w).toNat = dataNumber w := by
  rw [dataField, BitVec.extractLsb'_toNat, Nat.shiftRight_zero, dataNumber]

@[simp] theorem dataHighField_toNat (w : CommandWord) : (dataHighField w).toNat = dataNumber w / 2 ^ 16 := by
  rw [dataHighField, BitVec.extractLsb'_toNat, Nat.shiftRight_eq_div_pow, dataNumber]
  omega

@[simp] theorem sampleField_toNat (w : CommandWord) : (sampleField w).toNat = dataNumber w % 2 ^ 16 := by
  rw [sampleField, BitVec.extractLsb'_toNat, Nat.shiftRight_zero, dataNumber]
  omega

theorem addrField_eq_zero_iff (w : CommandWord) : addrField w = 0#4 ↔ addrNumber w = 0 := by
  simp [← BitVec.toNat_inj]

theorem dataField_eq_zero_iff (w : CommandWord) : dataField w = 0#32 ↔ dataNumber w = 0 := by
  simp [← BitVec.toNat_inj]

theorem dataHighField_eq_zero_iff (w : CommandWord) : dataHighField w = 0#16 ↔ dataNumber w < 65536 := by
  simp [← BitVec.toNat_inj, Nat.div_eq_zero_iff]

/-- The data field is the halves of R72, so it is zero when both are. -/
theorem dataField_eq_zero_iff_halves (w : CommandWord) :
    dataField w = 0#32 ↔ dataHighField w = 0#16 ∧ sampleField w = 0#16 := by
  simp only [← BitVec.toNat_inj, dataField_toNat, dataHighField_toNat, sampleField_toNat, BitVec.toNat_ofNat]
  omega

/-- With `data[31:16] = 0` the data field is the sample field, zero-extended (30_encoding.md R72). -/
theorem sampleField_setWidth {w : CommandWord} (h : dataHighField w = 0#16) :
    (sampleField w).setWidth 32 = dataField w := by
  rw [dataHighField_eq_zero_iff] at h
  refine BitVec.eq_of_toNat_eq ?_
  rw [BitVec.toNat_setWidth, sampleField_toNat, dataField_toNat]
  omega

/-- Two command words are equal when their fields are (30_encoding.md R70, R72). -/
theorem commandWord_ext_iff (w v : CommandWord) :
    w = v ↔ opField w = opField v ∧ addrField w = addrField v ∧ dataHighField w = dataHighField v ∧
      sampleField w = sampleField v := by
  simp only [← BitVec.toNat_inj, opField_toNat, addrField_toNat, dataHighField_toNat, sampleField_toNat, opNumber,
    addrNumber, dataNumber]
  omega

/-! ## The checks of the decoder (30_encoding.md R77) -/

/-- Check 1: the reserved codes are 0x6 to 0xF. -/
theorem Op.ofCode_eq_none_iff (c : BitVec 4) : Op.ofCode c = none ↔ 6 ≤ c.toNat := by
  revert c; decide

/-- Checks 3 and 4 by the cause code they end in, 0 when both pass. -/
theorem addressCause_code (op : Op) (a : RegAddr) :
    ((addressCause op a).elim 0 fun c => c.code.toNat) =
      if 4 ≤ op.code.toNat ∧ 5 ≤ a.toNat ∧ a.toNat ≤ 7 then 3
      else if op.code.toNat = 4 ∧ 8 ≤ a.toNat then 4
      else 0 := by
  cases op <;> revert a <;> decide

/-- The addresses that pass checks 3 and 4: 0x0 to 0x4 for `CFGW`, all but 0x5 to 0x7 for `CFGR`. -/
theorem addressCause_eq_none_iff (op : Op) (a : RegAddr) :
    addressCause op a = none ↔
      (op = .cfgw → a.toNat ≤ 4) ∧ (op = .cfgr → ¬(5 ≤ a.toNat ∧ a.toNat ≤ 7)) := by
  cases op <;> revert a <;> decide

/-- Everything the decoder can answer: the first check that fails, or the operands of a word that passes all. -/
theorem decode_cases (w : CommandWord) :
    (6 ≤ opNumber w ∧ decode w = .error .illOp) ∨
    (∃ op, opField w = op.code ∧ reservedBitsSet op w = true ∧ decode w = .error .illRsvd) ∨
    (∃ op c, opField w = op.code ∧ reservedBitsSet op w = false ∧ addressCause op (addrField w) = some c ∧
      decode w = .error c) ∨
    (∃ op, opField w = op.code ∧ reservedBitsSet op w = false ∧ addressCause op (addrField w) = none ∧
      decode w = .ok (assembleOperands op w)) := by
  unfold decode
  cases hop : Op.ofCode (opField w) with
  | none =>
    rw [Op.ofCode_eq_none_iff, opField_toNat] at hop
    exact .inl ⟨hop, rfl⟩
  | some op =>
    have hcode := (Op.code_of_ofCode _ _ hop).symm
    cases hrsvd : reservedBitsSet op w with
    | true => exact .inr (.inl ⟨op, hcode, hrsvd, by simp [hrsvd]⟩)
    | false =>
      cases haddr : addressCause op (addrField w) with
      | some c => exact .inr (.inr (.inl ⟨op, c, hcode, hrsvd, haddr, by simp [hrsvd, haddr]⟩))
      | none => exact .inr (.inr (.inr ⟨op, hcode, hrsvd, haddr, by simp [hrsvd, haddr]⟩))

/-- A word with a code in use has no reserved code. -/
theorem opNumber_lt_six {op : Op} {w : CommandWord} (h : opField w = op.code) : opNumber w < 6 := by
  rw [← opField_toNat, h]
  cases op <;> decide

theorem decode_of_reserved_code {w : CommandWord} (h : 6 ≤ opNumber w) : decode w = .error .illOp := by
  obtain ⟨-, hdec⟩ | ⟨op, hcode, -⟩ | ⟨op, -, hcode, -⟩ | ⟨op, hcode, -⟩ := decode_cases w
  · exact hdec
  all_goals exact absurd (opNumber_lt_six hcode) (by omega)

/-! ## The decode cause in numbers (30_encoding.md R77) -/

/-- The decode cause of a word with a code in use: checks 2 to 4 on the operation's format. -/
theorem decodeCause_of_opField {op : Op} {w : CommandWord} (h : opField w = op.code) :
    decodeCause w =
      if reservedBitsSet op w then 2 else (addressCause op (addrField w)).elim 0 fun c => c.code.toNat := by
  have hnum : opNumber w = op.code.toNat := by rw [← opField_toNat, h]
  rw [decodeCause, addressCause_code, addrField_toNat, hnum]
  cases op <;>
    simp [Op.code, reservedBitsSet, addrField_eq_zero_iff, dataField_eq_zero_iff, dataHighField_eq_zero_iff]

theorem IllegalCause.code_toNat_ne_zero (c : IllegalCause) : c.code.toNat ≠ 0 := by cases c <;> decide

/-! ## The operands of a word that passes the checks -/

@[simp] theorem assembleOperands_op (op : Op) (w : CommandWord) : (assembleOperands op w).op = op := by
  cases op <;> rfl

/-- The operands are well-formed exactly when the address checks pass (30_encoding.md R75, R77). -/
theorem assembleOperands_wellFormed_iff (op : Op) (w : CommandWord) :
    (assembleOperands op w).WellFormed ↔ addressCause op (addrField w) = none := by
  rw [addressCause_eq_none_iff, addrField_toNat]
  cases op with
  | nop | trig | bstart | samp | cfgw => simp [assembleOperands, Instr.WellFormed, Instr.wellFormed]
  | cfgr =>
    simp only [assembleOperands, Instr.WellFormed, Instr.wellFormed, addrField_toNat, decide_eq_true_eq,
      reduceCtorEq, false_imp_iff, true_imp_iff, true_and]
    omega

/-- A word whose must-be-zero fields are zero is the word of its operands (30_encoding.md R71 to R73). -/
theorem encode_assembleOperands {op : Op} {w : CommandWord} (hcode : opField w = op.code)
    (hrsvd : reservedBitsSet op w = false) : encode (assembleOperands op w) = w := by
  have same_fields : encode (assembleOperands op w) = commandWord op (addrField w) (dataField w) := by
    cases op with
    | nop | trig | bstart =>
      obtain ⟨haddr, hdata⟩ : addrField w = 0#4 ∧ dataField w = 0#32 := by simpa [reservedBitsSet] using hrsvd
      simp [encode, assembleOperands, haddr, hdata]
    | samp =>
      obtain ⟨haddr, hhigh⟩ : addrField w = 0#4 ∧ dataHighField w = 0#16 := by simpa [reservedBitsSet] using hrsvd
      simp [encode, assembleOperands, haddr, sampleField_setWidth hhigh]
    | cfgw => rfl
    | cfgr =>
      have hdata : dataField w = 0#32 := by simpa [reservedBitsSet] using hrsvd
      simp [encode, assembleOperands, hdata]
  rw [same_fields, commandWord_of_fields op w hcode]

/-- Each word either passes all the checks and is the word of the well-formed instruction decoded, or is refused
with the cause of the first check that fails (30_encoding.md R77). -/
theorem decode_meets_decodeCause (w : CommandWord) :
    (decodeCause w = 0 ∧ ∃ i, decode w = .ok i ∧ i.WellFormed ∧ encode i = w) ∨
    (∃ c, decode w = .error c ∧ c.code.toNat = decodeCause w) := by
  obtain ⟨hres, hdec⟩ | ⟨op, hcode, hrsvd, hdec⟩ | ⟨op, c, hcode, hrsvd, haddr, hdec⟩ |
    ⟨op, hcode, hrsvd, haddr, hdec⟩ := decode_cases w
  · exact .inr ⟨_, hdec, by simp [decodeCause, hres, IllegalCause.code]⟩
  · exact .inr ⟨_, hdec, by simp [decodeCause_of_opField hcode, hrsvd, IllegalCause.code]⟩
  · exact .inr ⟨c, hdec, by simp [decodeCause_of_opField hcode, hrsvd, haddr]⟩
  · exact .inl ⟨by simp [decodeCause_of_opField hcode, hrsvd, haddr], _, hdec,
      (assembleOperands_wellFormed_iff op w).2 haddr, encode_assembleOperands hcode hrsvd⟩

/-! ## The opcode rows (30_encoding.md R75) -/

/-- A masked comparison of words is one of their fields. -/
theorem and_eq_iff_fields (w m p : CommandWord) :
    w &&& m = p ↔ opField w &&& opField m = opField p ∧ addrField w &&& addrField m = addrField p ∧
      dataHighField w &&& dataHighField m = dataHighField p ∧ sampleField w &&& sampleField m = sampleField p := by
  rw [commandWord_ext_iff]
  simp only [opField, addrField, dataHighField, sampleField, BitVec.extractLsb'_and]

/-- A row of the opcode map selects the words that have the operation's code and pass check 2 of R77. -/
theorem opRow_selectedBy_iff (op : Op) (w : CommandWord) :
    (opRow op).selectedBy w ↔ opField w = op.code ∧ reservedBitsSet op w = false := by
  have full4 (x : BitVec 4) : x &&& 15#4 = x := BitVec.and_allOnes
  have full16 (x : BitVec 16) : x &&& 65535#16 = x := BitVec.and_allOnes
  rw [OpRow.selectedBy, and_eq_iff_fields]
  cases op <;>
    simp [opRow, Op.code, reservedBitsSet, dataField_eq_zero_iff_halves, opField, addrField, dataHighField,
      sampleField, full4, full16]

/-- A word decodes to an instruction when it selects the row of its operation, passes the address checks and holds
its operands (30_encoding.md R75, R76). -/
theorem decode_eq_ok_iff (w : CommandWord) (i : Instr) :
    decode w = .ok i ↔
      (opRow i.op).selectedBy w ∧ addressCause i.op (addrField w) = none ∧ i = assembleOperands i.op w := by
  rw [opRow_selectedBy_iff]
  constructor
  · intro h
    obtain ⟨-, hdec⟩ | ⟨op, -, -, hdec⟩ | ⟨op, c, -, -, -, hdec⟩ | ⟨op, hcode, hrsvd, haddr, hdec⟩ :=
      decode_cases w
    case inr.inr.inr =>
      obtain rfl : assembleOperands op w = i := by simpa [hdec] using h
      rw [assembleOperands_op]
      exact ⟨⟨hcode, hrsvd⟩, haddr, rfl⟩
    all_goals simp [hdec] at h
  · rintro ⟨⟨hcode, hrsvd⟩, haddr, hi⟩
    unfold decode
    rw [hcode, Op.ofCode_code]
    simp [hrsvd, haddr, ← hi]

/-! ## The refusals of the block framing -/

/-- `SAMP` with no block open is `ILL_NOBLK` (41_phase_accumulator_lut_interp.md R132). -/
theorem exec_samp_of_no_block (x : Sample) {s : State} (h : s.inBlock = false) :
    exec (.samp x) s = .next (illegal 5 s) := by
  obtain ⟨-, hsamp⟩ | ⟨hopen, -⟩ := sampleCommand_cases Config.params x s
  · exact congrArg Host.Outcome.next (hsamp.trans (raiseIllegal_eq_illegal .illNoBlk s))
  · simp [h] at hopen

/-- `BSTART` with a block open is `ILL_INBLK` (41_phase_accumulator_lut_interp.md R131). -/
theorem exec_bstart_of_block {s : State} (h : s.inBlock = true) : exec .bstart s = .next (illegal 6 s) := by
  obtain ⟨-, hstart⟩ | ⟨hclosed, -⟩ := blockStart_cases s
  · exact congrArg Host.Outcome.next (hstart.trans (raiseIllegal_eq_illegal .illInBlk s))
  · simp [h] at hclosed

/-! ## The obligations -/

/-- Settles O5: the decoder's answers, case by case, are the first failing check in numbers; the refusals of `SAMP`
and `BSTART` are one branch of each. -/
theorem decodeChecksInTheirOrder : Obligations.DecodeChecksInTheirOrder := by
  refine ⟨fun w => ?_, fun x _ h => exec_samp_of_no_block x h, fun _ h => exec_bstart_of_block h⟩
  obtain ⟨hzero, hok⟩ | ⟨c, hdec, hc⟩ := decode_meets_decodeCause w
  · exact ⟨fun _ => hok, fun h => absurd hzero h⟩
  · exact ⟨fun h => absurd (hc.trans h) c.code_toNat_ne_zero, fun _ => ⟨c, hdec, hc⟩⟩

/-- Settles O6: a word decodes to an operation when it selects its row and passes the address checks, which only
`CFGW` and `CFGR` have. -/
theorem opcodeRowsSelectTheOperations : Obligations.OpcodeRowsSelectTheOperations := by
  intro w
  refine ⟨?_, ?_, ?_, ?_, ?_, ?_, decode_of_reserved_code⟩ <;>
    simp [decode_eq_ok_iff, addressCause_eq_none_iff, assembleOperands, Instr.op, opRow]

end Sys2Proof
end

section
/-! The envelope's state machine: phase entry in numbers, the cases of `TRIG`, and how many turns the transition loop
of a `SAMP` has left, so that the loop may be entered one transition later (40_envelope_state_machine.md R101 to
R111). -/

open Sys2Proof Sys2Proof.Machine Sys2Proof.Claims

namespace Sys2Proof.Machine

/-! ## Phase entry in numbers (40_envelope_state_machine.md R100, R103) -/

theorem phaseIncrementFor_eq_increment (d : Word32) : phaseIncrementFor d = increment d := by
  simp [phaseIncrementFor, increment, u32, ← BitVec.toNat_inj]

theorem enterPhase_eq_entered (p : Phase) (d : Word32) (a b : Level) (s : State) :
    enterPhase p d a b s = entered p d (b.value - a.value) a.value s := by
  rw [entered, ← phaseIncrementFor_eq_increment]
  rfl

theorem enterAttack_eq_entered (s : State) : enterAttack s = entered .attack s.attackSamples 65536 0 s :=
  enterPhase_eq_entered .attack s.attackSamples .silence .full s

theorem enterHold_eq_entered (s : State) : enterHold s = entered .hold s.holdSamples 0 65536 s :=
  enterPhase_eq_entered .hold s.holdSamples .full .full s

theorem enterDecay_eq_entered (s : State) : enterDecay s = entered .decay s.decaySamples (-65536) 65536 s :=
  enterPhase_eq_entered .decay s.decaySamples .full .silence s

theorem enterForced_eq_entered (s : State) :
    enterForced s = entered .forced s.forcedDecaySamples (-65536) 65536 s :=
  enterPhase_eq_entered .forced s.forcedDecaySamples .full .silence s

/-! ## Transitions in numbers (40_envelope_state_machine.md R106, R107, R109) -/

theorem transition_of_attack {s : State} (h : s.state = .attack) :
    transition s =
      if 0 < s.holdSamples.toNat then entered .hold s.holdSamples 0 65536 s
      else entered .decay s.decaySamples (-65536) 65536 s := by
  simp [transition, h, enterHold_eq_entered, enterDecay_eq_entered]

theorem transition_of_hold {s : State} (h : s.state = .hold) :
    transition s = entered .decay s.decaySamples (-65536) 65536 s := by
  simp [transition, h, enterDecay_eq_entered]

theorem transition_of_forced {s : State} (h : s.state = .forced) :
    transition s = entered .attack s.attackSamples 65536 0 s := by
  simp [transition, h, enterAttack_eq_entered]

/-! ## The answer of `TRIG` in numbers (30_encoding.md R74) -/

theorem respond_ack_eq_answered (s : State) : respond .ack s = answered 0 s := by
  simp [respond, answered, Response.word, responseWord_eq_ofNat]

/-! ## The turns of the transition loop (40_envelope_state_machine.md R111) -/

/-- The most turns the transition loop can take from a phase with `c` re-triggers left: DECAY and ATTACK alternate
once for each re-trigger, and FORCED passes through ATTACK first. -/
def phaseTurns (p : Phase) (c : Nat) : Nat :=
  match p with
  | .idle => 0
  | .decay => 2 * c + 1
  | .attack => 2 * c + 2
  | .hold => 2 * c + 2
  | .forced => 2 * c + 3

/-- A bound on the turns the loop has left, none when no transition is due. -/
def turnsLeft (s : State) : Nat :=
  if transitionDue s then phaseTurns s.state s.retriggerCount.toInt.toNat else 0

theorem turnsLeft_of_due {s : State} (h : transitionDue s = true) :
    turnsLeft s = phaseTurns s.state s.retriggerCount.toInt.toNat := by
  simp [turnsLeft, h]

theorem turnsLeft_le_phaseTurns (s : State) : turnsLeft s ≤ phaseTurns s.state s.retriggerCount.toInt.toNat := by
  unfold turnsLeft
  split <;> omega

theorem turnsLeft_le_settleBound (s : State) : turnsLeft s ≤ settleBound s := by
  refine (turnsLeft_le_phaseTurns s).trans ?_
  cases hs : s.state <;> simp only [phaseTurns, settleBound] <;> omega

/-- Counting a re-trigger does not wrap while the count is positive (40_envelope_state_machine.md R108). -/
theorem countRetrigger_toInt {s : State} (h : 0 < s.retriggerCount.toInt) :
    (countRetrigger s).retriggerCount.toInt = s.retriggerCount.toInt - 1 := by
  have count_lt := BitVec.toInt_lt (x := s.retriggerCount)
  rw [countRetrigger_retriggerCount, s32]
  exact BitVec.toInt_ofInt_eq_self (by decide) (by omega) (by omega)

/-- A phase entry keeps the re-trigger count. -/
theorem turnsLeft_enterPhase_le (p : Phase) (d : Word32) (a b : Level) (s : State) :
    turnsLeft (enterPhase p d a b s) ≤ phaseTurns p s.retriggerCount.toInt.toNat :=
  turnsLeft_le_phaseTurns (enterPhase p d a b s)

/-- Each turn lowers the bound. The turn from ATTACK to HOLD does not lower `phaseTurns`, but HOLD is entered only
with a length, so no further turn is due there. -/
theorem turnsLeft_transition_lt {s : State} (h : transitionDue s = true) :
    turnsLeft (transition s) < turnsLeft s := by
  have not_idle : s.state ≠ .idle := ((transitionDue_iff s).1 h).1
  rw [turnsLeft_of_due h]
  obtain ⟨hs, -⟩ | ⟨hs, hlen, ht⟩ | ⟨hs, -, ht⟩ | ⟨hs, ht⟩ | ⟨hs, hpos, ht⟩ | ⟨hs, -, ht⟩ | ⟨hs, ht⟩ :=
    transition_cases s
  · exact absurd hs not_idle
  all_goals rw [ht, hs]
  · have hold_settled : transitionDue (enterHold s) = false := by simp [transitionDue, enterHold, hlen]
    simp [turnsLeft, hold_settled, phaseTurns]
  · exact (turnsLeft_enterPhase_le ..).trans_lt (by simp [phaseTurns])
  · exact (turnsLeft_enterPhase_le ..).trans_lt (by simp [phaseTurns])
  · refine (turnsLeft_enterPhase_le ..).trans_lt ?_
    rw [countRetrigger_toInt hpos]
    simp only [phaseTurns]
    omega
  · exact (turnsLeft_le_phaseTurns _).trans_lt (by simp [phaseTurns])
  · exact (turnsLeft_enterPhase_le ..).trans_lt (by simp [phaseTurns])

/-- Fuel beyond the turns that are left changes nothing. -/
theorem settleWithin_eq_of_turnsLeft_le {n m : Nat} {s : State} (hn : turnsLeft s ≤ n) (hm : turnsLeft s ≤ m) :
    settleWithin n s = settleWithin m s := by
  induction n generalizing m s with
  | zero =>
    have not_due : transitionDue s = false := by
      by_contra due
      have := turnsLeft_transition_lt (by simpa using due)
      omega
    rw [settleWithin_of_not_due 0 s not_due, settleWithin_of_not_due m s not_due]
  | succ n ih =>
    cases due : transitionDue s with
    | false => rw [settleWithin_of_not_due _ s due, settleWithin_of_not_due m s due]
    | true =>
      have turn := turnsLeft_transition_lt due
      obtain ⟨m, rfl⟩ : ∃ k, m = k + 1 := ⟨m - 1, by omega⟩
      rw [settleWithin_succ_of_due n s due, settleWithin_succ_of_due m s due]
      exact ih (by omega) (by omega)

/-- The loop ends in the same state when it is entered one transition later. -/
theorem settle_transition {s : State} (h : transitionDue s = true) : settle (transition s) = settle s := by
  have turn := turnsLeft_transition_lt h
  have bound := turnsLeft_le_settleBound s
  calc settle (transition s)
      = settleWithin (settleBound s) (transition s) :=
        settleWithin_eq_of_turnsLeft_le (turnsLeft_le_settleBound _) (by omega)
    _ = settleWithin (settleBound s + 1) s := (settleWithin_succ_of_due _ s h).symm
    _ = settle s := settleWithin_eq_of_turnsLeft_le (by omega) bound

/-! ## `SAMP` in an open block -/

/-- Outside a tail a sample depends on the state only through where the loop leaves it. -/
theorem processSample_congr_settle {s t : State} (hs : s.tail = false) (ht : t.tail = false)
    (h : settle s = settle t) (P : Params) (x : Sample) : processSample P x s = processSample P x t := by
  simp [processSample, hs, ht, h]

theorem sampleCommand_of_block {s : State} (h : s.inBlock = true) (P : Params) (x : Sample) :
    sampleCommand P x s =
      respond (.smp (processSample P x s).1 (isLastSample P (processSample P x s).2))
        (countSample P (processSample P x s).2) := by
  simp [sampleCommand, h]

/-- A `SAMP` outside a tail that finds a transition due answers and leaves the block as if the transition had been
taken before it (41_phase_accumulator_lut_interp.md R132). -/
theorem exec_samp_transition (x : Sample) {s : State} (hblock : s.inBlock = true) (htail : s.tail = false)
    (hdue : transitionDue s = true) : exec (.samp x) (transition s) = exec (.samp x) s := by
  obtain ⟨-, -, -, -, -, inBlock_kept, tail_kept, -⟩ := transition_frame s
  have same_sample := processSample_congr_settle (tail_kept.trans htail) htail (settle_transition hdue)
    Config.params x
  refine congrArg Host.Outcome.next ?_
  rw [sampleCommand_of_block (inBlock_kept.trans hblock), sampleCommand_of_block hblock, same_sample]

/-! ## The obligations -/

/-- Settles O28: the `SAMP` is that of the state after the due transition, which is the phase entry of R106, R107 or
R109. -/
theorem sampLeavesAFinishedPhaseFirst : Obligations.SampLeavesAFinishedPhaseFirst := by
  intro x s hblock htail hrem
  have after_transition (hs : s.state ≠ .idle) : exec (.samp x) s = exec (.samp x) (transition s) :=
    (exec_samp_transition x hblock htail ((transitionDue_iff s).2 ⟨hs, hrem⟩)).symm
  refine ⟨fun hs => ?attack, fun hs => ?hold, fun hs => ?forced⟩
  case attack => rw [after_transition (by simp [hs]), transition_of_attack hs]
  case hold => rw [after_transition (by simp [hs]), transition_of_hold hs]
  case forced => rw [after_transition (by simp [hs]), transition_of_forced hs]

/-- Settles O22: the three outcomes of the trigger, with the tests of R101 read on the forced duration's number. -/
theorem trigThreeCases : Obligations.TrigThreeCases := by
  intro s
  have forced_zero : s.forcedDecaySamples.toNat = 0 ↔ s.forcedDecaySamples = 0#32 := by
    simp [← BitVec.toNat_inj]
  refine congrArg Host.Outcome.next ((respond_ack_eq_answered _).trans (congrArg _ ?_))
  simp only [forced_zero]
  obtain ⟨hrestart, ht⟩ | ⟨hidle, hforced, hlen, ht⟩ | ⟨hforced, hlen, ht⟩ := trigger_cases s
  · rw [ht, enterAttack_eq_entered, if_pos hrestart]
  · have running : s.state = .attack ∨ s.state = .hold ∨ s.state = .decay := by
      cases hs : s.state <;> simp_all
    rw [ht, enterForced_eq_entered, if_neg (by simp [hidle, hlen]), if_pos running]
  · rw [ht, if_neg (by simp [hforced, hlen]), if_neg (by simp [hforced])]

/-- Settles O24: the record of a phase entry in numbers; the examples of R103 are quotients of fixed words. -/
theorem phaseEntryWrites : Obligations.PhaseEntryWrites :=
  ⟨enterPhase_eq_entered, by decide, by decide, by decide, by decide, by decide, by decide, by decide⟩

end Sys2Proof.Machine
end

section
/-! `BSTART` and `SAMP` in the numbers of the statements, and the fuel-bounded transition loop as the `while` it stands
for (41_phase_accumulator_lut_interp.md R131, R132). -/

open Sys2Proof Sys2Proof.Machine Sys2Proof.Claims

namespace Sys2Proof.Machine

/-! ## The transition loop is a run of the `while` (41_phase_accumulator_lut_interp.md R132) -/

theorem settled_iff_not_due (s : State) : Settled s ↔ transitionDue s = false := by
  rw [← Bool.not_eq_true, transitionDue_iff, Settled]
  tauto

/-- Enough fuel takes the loop to where the `while` ends. -/
theorem loopLeaves_settleWithin {n : Nat} {s : State} (h : turnsLeft s ≤ n) : LoopLeaves s (settleWithin n s) := by
  induction n generalizing s with
  | zero =>
    cases due : transitionDue s with
    | false => exact .done s ((settled_iff_not_due s).2 due)
    | true => exact absurd (turnsLeft_transition_lt due) (by omega)
  | succ n ih =>
    cases due : transitionDue s with
    | false =>
      rw [settleWithin_of_not_due _ s due]
      exact .done s ((settled_iff_not_due s).2 due)
    | true =>
      have turn := turnsLeft_transition_lt due
      rw [settleWithin_succ_of_due n s due]
      exact .turn s _ (by simp [settled_iff_not_due, due]) (ih (by omega))

theorem loopLeaves_settle (s : State) : LoopLeaves s (settle s) :=
  loopLeaves_settleWithin (turnsLeft_le_settleBound s)

theorem settled_of_loopLeaves {s u : State} (h : LoopLeaves s u) : Settled u := by
  induction h with
  | done s h => exact h
  | turn s u _ _ ih => exact ih

theorem settle_remaining_ne_zero {s : State} (h : (settle s).state ≠ .idle) : (settle s).remaining ≠ 0#32 :=
  (settled_of_loopLeaves (loopLeaves_settle s)).resolve_left h

/-! ## One rendered sample in numbers (41_phase_accumulator_lut_interp.md R135 to R137) -/

theorem tableIndex_val (acc : Word32) : (tableIndex acc).val = acc.toNat / 2 ^ 24 := by
  have acc_lt := acc.isLt
  simp only [tableIndex, BitVec.val_toFin, BitVec.extractLsb'_toNat, Nat.shiftRight_eq_div_pow]
  omega

theorem blendWeight_eq (acc : Word32) : blendWeight acc = acc.toNat / 2 ^ 8 % 2 ^ 16 := by
  simp [blendWeight, BitVec.extractLsb'_toNat, Nat.shiftRight_eq_div_pow]

/-- `TABLE` at an index that is in range by its type. -/
theorem entry_val (i : Fin 257) : entry i.val = (Config.params.table i).val := by
  simp [entry]

theorem tableLow_eq_entry (acc : Word32) : tableLow Config.params acc = entry (acc.toNat / 2 ^ 24) := by
  rw [tableLow, ← entry_val, Fin.val_castSucc, tableIndex_val]

theorem tableHigh_eq_entry (acc : Word32) : tableHigh Config.params acc = entry (acc.toNat / 2 ^ 24 + 1) := by
  rw [tableHigh, ← entry_val, Fin.val_succ, tableIndex_val]

theorem renderOutput_eq_outputAt (x : Sample) (s : State) : renderOutput Config.params x s = outputAt s x := by
  simp only [renderOutput, curve, tableLow_eq_entry, tableHigh_eq_entry, blendWeight_eq]
  rfl

/-- Counting a sample does not wrap while one is left (41_phase_accumulator_lut_interp.md R137). -/
theorem advance_eq_advanced {s : State} (h : s.remaining ≠ 0#32) : advance s = advanced s := by
  have acc_sum : s.phaseAccumulator + s.phaseIncrement =
      BitVec.ofNat 32 (s.phaseAccumulator.toNat + s.phaseIncrement.toNat) := by
    simp [BitVec.ofNat_add]
  have one_less : s.remaining - 1#32 = BitVec.ofNat 32 (s.remaining.toNat - 1) := by bv_omega
  rw [advance, acc_sum, one_less]
  rfl

/-! ## The answers of `BSTART` and `SAMP` in numbers (30_encoding.md R74) -/

theorem respond_blk_eq_answered (active : Bool) (s : State) :
    respond (.blk active) s = answered (0x100000000 + active.toNat) s := by
  cases active <;> simp [respond, answered, Response.word, responseWord_eq_ofNat]

theorem samplePayload_toNat (y : Sample) (last : Bool) :
    (samplePayload y last).toNat = last.toNat * 0x10000 + y.toNat := by
  rw [samplePayload, BitVec.toNat_append, BitVec.toNat_append, ← Nat.shiftLeft_add_eq_or_of_lt y.isLt]
  cases last <;> simp

theorem respond_smp_eq_answered (y : Sample) (last : Bool) (s : State) :
    respond (.smp y last) s = answered (0x200000000 + last.toNat * 0x10000 + y.toNat) s := by
  simp [respond, answered, Response.word, responseWord_eq_ofNat, samplePayload_toNat, Nat.add_assoc]

theorem isLastSample_iff (P : Params) (s : State) : isLastSample P s = true ↔ s.blockPos.toNat = P.blockLen - 1 := by
  simp [isLastSample]

/-- The bookkeeping and the answer of a `SAMP` together (41_phase_accumulator_lut_interp.md R132, R139). -/
theorem respond_smp_countSample (y : Sample) (s : State) :
    respond (.smp y (isLastSample Config.params s)) (countSample Config.params s) = counted y s := by
  rw [respond_smp_eq_answered]
  obtain ⟨hlast, hcount⟩ | ⟨hlast, hcount⟩ := countSample_cases Config.params s
  · rw [hcount, hlast, counted, if_pos ((isLastSample_iff _ s).1 hlast)]
    rfl
  · have not_last : ¬ s.blockPos.toNat = Config.params.blockLen - 1 := by simp [← isLastSample_iff, hlast]
    rw [hcount, hlast, counted, if_neg not_last]
    rfl

theorem exec_samp_of_block (x : Sample) {s : State} (h : s.inBlock = true) :
    exec (.samp x) s =
      .next (counted (processSample Config.params x s).1 (processSample Config.params x s).2) :=
  congrArg Host.Outcome.next ((sampleCommand_of_block h _ x).trans (respond_smp_countSample ..))

theorem processSample_of_tail {s : State} (h : s.tail = true) (P : Params) (x : Sample) :
    processSample P x s = (0#16, s) := by
  simp [processSample, h]

theorem exec_bstart_of_no_block {s : State} (h : s.inBlock = false) :
    exec .bstart s = .next (answered (0x100000000 + (blockActive s).toNat) (openBlock s)) := by
  obtain ⟨hopen, -⟩ | ⟨-, hstart⟩ := blockStart_cases s
  · simp [h] at hopen
  · exact congrArg Host.Outcome.next (hstart.trans (respond_blk_eq_answered ..))

/-! ## The obligations -/

/-- Settles O34: the state where the `while` ends is the model's `settle`; there the sample is silent and opens the
tail, or finds `remaining` positive, so that its decrement is the one in numbers. -/
theorem sampFollowsItsPseudocode : Obligations.SampFollowsItsPseudocode := by
  refine fun x s => ⟨exec_samp_of_no_block x, fun hblock htail => ?tail,
    fun hblock htail => ⟨settle s, loopLeaves_settle s, ?loop⟩⟩
  case tail => rw [exec_samp_of_block x hblock, processSample_of_tail htail]
  case loop =>
    rw [exec_samp_of_block x hblock]
    obtain ⟨ht, -⟩ | ⟨-, hidle, hsample⟩ | ⟨-, hrun, hsample⟩ := processSample_cases Config.params x s
    · simp [htail] at ht
    · rw [hsample, if_pos hidle]
      rfl
    · rw [hsample, if_neg hrun, renderOutput_eq_outputAt, advance_eq_advanced (settle_remaining_ne_zero hrun)]

/-- Settles O32: outside a block the framing and the answer are both read off whether the envelope is IDLE. -/
theorem bstartOpensOrSkips : Obligations.BstartOpensOrSkips := by
  refine fun s => ⟨exec_bstart_of_block, fun hblock hidle => ?skip, fun hblock hrun => ?opens⟩
  case skip =>
    have inactive : blockActive s = false := by simp [blockActive, hidle]
    rw [exec_bstart_of_no_block hblock, openBlock, inactive]
    rfl
  case opens =>
    have active : blockActive s = true := by simp [blockActive, hrun]
    rw [exec_bstart_of_no_block hblock, openBlock, active]
    rfl

end Sys2Proof.Machine
end

section
/-! The gain transform at the ends of the curve's codomain, and the coefficient pair as the only solution there
(42_linear_gain_scaler.md R161, R162). -/

open Sys2Proof Sys2Proof.Machine Sys2Proof.Claims

namespace Sys2Proof.Machine

/-! ## `s32` and the signed value -/

/-- `s32` keeps every number that 32 bits hold in two's complement (00_scope.md R10). -/
theorem s32_toInt {v : Int} (low : -2 ^ 31 ≤ v) (high : v < 2 ^ 31) : (s32 v).toInt = v :=
  BitVec.toInt_ofInt_eq_self (by decide) low high

@[simp] theorem s32_of_toInt (w : Word32) : s32 w.toInt = w := BitVec.ofInt_toInt

/-! ## The transform at the codomain bounds (R162) -/

@[simp] theorem gain_zero (m o : Word32) : gain m o 0 = o.toInt := by simp [gain, asr]

/-- At full scale the shift drops only zeros, so nothing is rounded. -/
@[simp] theorem gain_full (m o : Word32) : gain m o 65536 = m.toInt + o.toInt := by simp [gain, asr]

/-- The two end values of the gain fix the signed values of the pair. -/
theorem gain_endpoints_iff (m o : Word32) (a b : Int) :
    (gain m o 0 = a ∧ gain m o 65536 = b) ↔ (m.toInt = b - a ∧ o.toInt = a) := by
  rw [gain_zero, gain_full]
  omega

/-! ## The coefficient pair (R161) -/

/-- Between gain levels the difference and the start level both fit, so `s32` changes neither. -/
theorem coeffs_toInt {a b : Nat} (ha : a ≤ 65536) (hb : b ≤ 65536) :
    (coeffs a b).1.toInt = b - a ∧ (coeffs a b).2.toInt = a :=
  ⟨s32_toInt (by omega) (by omega), s32_toInt (by omega) (by omega)⟩

theorem eq_coeffs_of_toInt {m o : Word32} {a b : Int} (hm : m.toInt = b - a) (ho : o.toInt = a) :
    (m, o) = coeffs a b := by
  rw [coeffs, ← hm, ← ho, s32_of_toInt, s32_of_toInt]

/-! ## The obligation -/

/-- Settles O25: the two end values of the gain are a linear system in the pair's signed values; `coeffs` is its
solution, and a word is determined by its signed value. -/
theorem coeffsAreTheUniqueExactPair : Obligations.CoeffsAreTheUniqueExactPair := by
  refine ⟨fun a b ha hb => ?pair, by decide, by decide, by decide⟩
  obtain ⟨multiplier, offset⟩ := coeffs_toInt ha hb
  obtain ⟨atZero, atFull⟩ := (gain_endpoints_iff _ _ _ _).2 ⟨multiplier, offset⟩
  refine ⟨multiplier, offset, atZero, atFull, fun m o hzero hfull => ?unique⟩
  obtain ⟨hm, ho⟩ := (gain_endpoints_iff m o a b).1 ⟨hzero, hfull⟩
  exact eq_coeffs_of_toInt hm ho

end Sys2Proof.Machine
end

section
/-! `NOP`, `CFGW` and `CFGR` by address: the register map in numbers is the register space
(43_config_and_system.md R170 to R172, 10_state.md R35, R37). -/

open Sys2Proof Sys2Proof.Machine Sys2Proof.Claims

namespace Sys2Proof.Machine

/-! ## The `STATUS` word in numbers (10_state.md R35) -/

/-- A word is the sum of the fields that R35 cuts it into, each at its place. -/
theorem word_toNat_eq_sum_status_fields (w : Word32) :
    w.toNat = (w.extractLsb' 9 23).toNat * 512 + (w.extractLsb' 6 3).toNat * 64 + (w.getLsbD 5).toNat * 32 +
      (w.getLsbD 4).toNat * 16 + (w.getLsbD 3).toNat * 8 + (w.extractLsb' 0 3).toNat := by
  have hw := w.isLt
  simp only [BitVec.extractLsb'_toNat, BitVec.getLsbD, Nat.toNat_testBit, Nat.shiftRight_eq_div_pow]
  omega

theorem statusWord_toNat (s : State) : (statusWord s).toNat = statusNumber s := by
  rw [word_toNat_eq_sum_status_fields, statusWord_high, statusWord_errcode, statusWord_state]
  simp only [statusWord_getLsbD]
  cases hs : s.state <;> simp [statusNumber, hs, Phase.code]

/-! ## The register map in numbers (10_state.md R37) -/

theorem reserved_cases {a : RegAddr} (h : Reg.ofAddr a = none) : a = 0x5#4 ∨ a = 0x6#4 ∨ a = 0x7#4 := by
  rw [Reg.ofAddr_eq_none_iff] at h
  bv_omega

theorem mapRead_addr (r : Reg) (s : State) : mapRead r.addr.toNat s = some (regRead r s).toNat := by
  cases r with
  | status => exact congrArg some (statusWord_toNat s).symm
  | blockPos => exact congrArg some (BitVec.toNat_setWidth_of_le (by decide)).symm
  | attackSamples | holdSamples | decaySamples | forcedSamples | maxRetrig => rfl
  | remaining | phaseAcc | phaseInc | retrigCnt | gainMult | gainOff => rfl

theorem mapRead_of_reserved {a : RegAddr} (h : Reg.ofAddr a = none) (s : State) : mapRead a.toNat s = none := by
  obtain rfl | rfl | rfl := reserved_cases h <;> rfl

/-! ## `CFGR` and `CFGW` at a reserved address, `CFGW` at a writable one -/

theorem exec_cfgr_of_reserved {a : RegAddr} (h : Reg.ofAddr a = none) (s : State) :
    exec (.cfgr a) s = .next (illegal 3 s) := by
  obtain ⟨-, hexec⟩ | ⟨r, hr, -⟩ := execCfgr_cases a s
  · exact hexec.trans (congrArg _ (raiseIllegal_eq_illegal .illAddr s))
  · simp [h] at hr

theorem exec_cfgw_of_reserved {a : RegAddr} (h : Reg.ofAddr a = none) (v : Word32) (s : State) :
    exec (.cfgw a v) s = .next (illegal 3 s) := by
  obtain ⟨-, hexec⟩ | ⟨r, hr, -⟩ | ⟨r, hr, -⟩ := execCfgw_cases a v s
  · exact hexec.trans (congrArg _ (raiseIllegal_eq_illegal .illAddr s))
  · simp [h] at hr
  · simp [h] at hr

/-- `CFGW` at a writable register's address replaces that register (43_config_and_system.md R171). -/
theorem exec_cfgw_addr_of_writable {r : Reg} (h : r.readOnly = false) (v : Word32) (s : State) :
    exec (.cfgw r.addr v) s = .next (answered 0 (regWrite r v s)) := by
  obtain ⟨hnone, -⟩ | ⟨r', hr', hreadOnly, -⟩ | ⟨r', hr', -, hexec⟩ := execCfgw_cases r.addr v s
  · simp [Reg.ofAddr_addr] at hnone
  · obtain rfl : r = r' := by simpa [Reg.ofAddr_addr] using hr'
    simp [h] at hreadOnly
  · obtain rfl : r = r' := by simpa [Reg.ofAddr_addr] using hr'
    exact hexec.trans (congrArg _ (respond_ack_eq_answered _))

/-! ## The obligations -/

/-- Settles O44: the whole meaning of `NOP` is its answer. -/
theorem nopOnlyAnswers : Obligations.NopOnlyAnswers :=
  fun s => congrArg Host.Outcome.next (respond_ack_eq_answered s)

/-- Settles O45: an address is reserved or that of a register, and the register says whether it is writable. -/
theorem cfgwWritesOneRegister : Obligations.CfgwWritesOneRegister := by
  intro a v s
  cases ha : Reg.ofAddr a with
  | none =>
    obtain rfl | rfl | rfl := reserved_cases ha <;> exact exec_cfgw_of_reserved ha v s
  | some r =>
    obtain rfl := Reg.addr_of_ofAddr a r ha
    cases r with
    | attackSamples | holdSamples | decaySamples | forcedSamples | maxRetrig =>
      exact exec_cfgw_addr_of_writable rfl v s
    | status | remaining | phaseAcc | phaseInc | retrigCnt | gainMult | gainOff | blockPos =>
      exact exec_cfgw_addr_of_readOnly rfl v s

/-- Settles O46: at each register's address the map in numbers holds the value read, and at the others nothing. -/
theorem cfgrReadsTheMap : Obligations.CfgrReadsTheMap := by
  intro a s
  cases ha : Reg.ofAddr a with
  | none => rw [exec_cfgr_of_reserved ha, mapRead_of_reserved ha]
  | some r =>
    obtain rfl := Reg.addr_of_ofAddr a r ha
    rw [exec_cfgr_addr, mapRead_addr]

end Sys2Proof.Machine
end

section
/-! Illegal commands and the sticky error pair (60_exceptions.md R181, R186): which commands a step refuses, and
what a step can do to `err` and `errcode`. -/

open Sys2Proof Sys2Proof.Machine Sys2Proof.Claims

namespace Sys2Proof

/-! ## The operation of a decoded word in numbers (30_encoding.md R75) -/

theorem opNumber_of_decode {w : CommandWord} {i : Instr} (h : decode w = .ok i) :
    opNumber w = i.op.code.toNat := by
  obtain ⟨hrow, -⟩ := (decode_eq_ok_iff w i).1 h
  obtain ⟨hcode, -⟩ := (opRow_selectedBy_iff i.op w).1 hrow
  rw [← opField_toNat, hcode]

theorem Instr.eq_bstart_of_code {i : Instr} (h : i.op.code.toNat = 2) : i = .bstart := by
  cases i with
  | bstart => rfl
  | nop | trig | samp | cfgw | cfgr => simp [Instr.op, Op.code] at h

theorem Instr.eq_samp_of_code {i : Instr} (h : i.op.code.toNat = 3) : ∃ x, i = .samp x := by
  cases i with
  | samp x => exact ⟨x, rfl⟩
  | nop | trig | bstart | cfgw | cfgr => simp [Instr.op, Op.code] at h

namespace Machine

/-! ## The step by what is presented -/

section
variable {s : State} {w : CommandWord} {rest : List Input} (hport : s.port = .command w :: rest)
include hport

theorem step_of_decode_ok {i : Instr} (h : decode w = .ok i) : step s = exec i { s with port := rest } := by
  simp [step, fetch, hport, h]

theorem step_of_decode_error {c : IllegalCause} (h : decode w = .error c) :
    step s = .next (raiseIllegal c { s with port := rest }) := by
  simp [step, fetch, hport, h]

/-- A word that fails a decode check is answered with the cause of the first one (30_encoding.md R77, R78). -/
theorem step_of_decodeCause_ne_zero (h : decodeCause w ≠ 0) :
    step s = .next (illegal (decodeCause w) { s with port := rest }) := by
  obtain ⟨hzero, -⟩ | ⟨c, hdec, hc⟩ := decode_meets_decodeCause w
  · exact absurd hzero h
  · rw [step_of_decode_error hport hdec, raiseIllegal_eq_illegal, hc]

/-- A word that passes the decode checks executes the instruction of its operation number. -/
theorem step_of_decodeCause_eq_zero (h : decodeCause w = 0) :
    ∃ i : Instr, i.op.code.toNat = opNumber w ∧ step s = exec i { s with port := rest } := by
  obtain ⟨-, i, hdec, -⟩ | ⟨c, -, hc⟩ := decode_meets_decodeCause w
  · exact ⟨i, (opNumber_of_decode hdec).symm, step_of_decode_ok hport hdec⟩
  · exact absurd (hc.trans h) c.code_toNat_ne_zero

end

theorem resetIsNext_iff (s : State) :
    resetIsNext s = true ↔ ∃ rest, s.port = .reset :: rest ∨ ∃ w, s.port = .resetWith w :: rest := by
  cases hport : s.port with
  | nil => simp [resetIsNext, hport]
  | cons i rest => cases i <;> simp [resetIsNext, hport]

theorem step_of_resetIsNext {s : State} (h : resetIsNext s = true) :
    ∃ rest, step s = .next (resetEvent { s with port := rest }) := by
  obtain ⟨rest, hport | ⟨w, hport⟩⟩ := (resetIsNext_iff s).1 h <;> exact ⟨rest, by simp [step, fetch, hport]⟩

/-! ## What can happen to the error pair -/

/-- `t` comes from `s` with the error pair as it was, or by raising an illegal command. -/
def KeepsErrorsOrRaises (s t : State) : Prop := SameErrors s t ∨ ∃ c, t = raiseIllegal c s

theorem countSample_sameErrors (P : Params) (s : State) : SameErrors s (countSample P s) := by
  obtain ⟨-, h⟩ | ⟨-, h⟩ := countSample_cases P s <;> rw [h] <;> exact ⟨rfl, rfl⟩

theorem processSample_sameErrors (P : Params) (x : Sample) (s : State) :
    SameErrors s (processSample P x s).2 := by
  obtain ⟨-, -, -, -, -, -, -, -, err_kept, errcode_kept, -⟩ := settle_frame s
  obtain ⟨-, h⟩ | ⟨-, -, h⟩ | ⟨-, -, h⟩ := processSample_cases P x s <;>
    simp [SameErrors, h, err_kept, errcode_kept]

theorem trigger_sameErrors (s : State) : SameErrors s (trigger s) := by
  obtain ⟨-, h⟩ | ⟨-, -, -, h⟩ | ⟨-, -, h⟩ := trigger_cases s <;> rw [h] <;> exact ⟨rfl, rfl⟩

theorem regWrite_sameErrors (r : Reg) (v : Word32) (s : State) : SameErrors s (regWrite r v s) := by
  cases r <;> exact ⟨rfl, rfl⟩

theorem blockStart_keepsErrorsOrRaises (s : State) : KeepsErrorsOrRaises s (blockStart s) := by
  obtain ⟨-, h⟩ | ⟨-, h⟩ := blockStart_cases s
  · exact .inr ⟨_, h⟩
  · exact .inl (by rw [h]; exact ⟨rfl, rfl⟩)

theorem sampleCommand_keepsErrorsOrRaises (P : Params) (x : Sample) (s : State) :
    KeepsErrorsOrRaises s (sampleCommand P x s) := by
  cases hblock : s.inBlock with
  | false => exact .inr ⟨.illNoBlk, by simp [sampleCommand, hblock]⟩
  | true =>
    obtain ⟨err_rendered, errcode_rendered⟩ := processSample_sameErrors P x s
    obtain ⟨err_counted, errcode_counted⟩ := countSample_sameErrors P (processSample P x s).2
    rw [sampleCommand_of_block hblock]
    exact .inl ⟨err_rendered.trans err_counted, errcode_rendered.trans errcode_counted⟩

/-- Every instruction ends, and the only way it writes the error pair is by raising an illegal command. -/
theorem exec_keepsErrorsOrRaises (i : Instr) (s : State) :
    ∃ t, exec i s = .next t ∧ KeepsErrorsOrRaises s t := by
  cases i with
  | nop => exact ⟨_, rfl, .inl ⟨rfl, rfl⟩⟩
  | trig => exact ⟨_, rfl, .inl (trigger_sameErrors s)⟩
  | bstart => exact ⟨_, rfl, blockStart_keepsErrorsOrRaises s⟩
  | samp x => exact ⟨_, rfl, sampleCommand_keepsErrorsOrRaises _ x s⟩
  | cfgw a v =>
    obtain ⟨-, h⟩ | ⟨-, -, -, h⟩ | ⟨r, -, -, h⟩ := execCfgw_cases a v s
    · exact ⟨_, h, .inr ⟨_, rfl⟩⟩
    · exact ⟨_, h, .inr ⟨_, rfl⟩⟩
    · exact ⟨_, h, .inl (regWrite_sameErrors r v s)⟩
  | cfgr a =>
    obtain ⟨-, h⟩ | ⟨r, -, h⟩ := execCfgr_cases a s
    · exact ⟨_, h, .inr ⟨_, rfl⟩⟩
    · exact ⟨_, h, .inl ⟨rfl, rfl⟩⟩

/-- Every step without RESET leaves the error pair or raises an illegal command, after taking its input. -/
theorem step_keepsErrorsOrRaises {s : State} (h : resetIsNext s = false) :
    ∃ port t, step s = .next t ∧ KeepsErrorsOrRaises { s with port := port } t := by
  obtain ⟨-, hstep⟩ | ⟨-, i, rest, -, -, hstep⟩ | ⟨-, c, rest, -, -, hstep⟩ | ⟨rest, hport, -⟩ := step_cases s
  · exact ⟨s.port, s, hstep, .inl ⟨rfl, rfl⟩⟩
  · obtain ⟨t, hexec, ht⟩ := exec_keepsErrorsOrRaises i { s with port := rest }
    exact ⟨rest, t, hstep.trans hexec, ht⟩
  · exact ⟨rest, _, hstep, .inr ⟨c, rfl⟩⟩
  · simp [(resetIsNext_iff s).2 ⟨rest, hport⟩] at h

/-- Once set, the pair is latched: an illegal command finds `err` set and keeps the first cause. -/
theorem KeepsErrorsOrRaises.latched {s t : State} (h : KeepsErrorsOrRaises s t) (herr : s.err = true) :
    t.err = true ∧ t.errcode = s.errcode := by
  obtain ⟨err_kept, errcode_kept⟩ | ⟨c, rfl⟩ := h
  · exact ⟨err_kept.symm.trans herr, errcode_kept.symm⟩
  · simp [raiseIllegal, herr]

/-! ## The obligations -/

/-- Settles O16: a word that fails a decode check is refused with its cause; one that passes executes the `SAMP` or
`BSTART` of its operation number, which the block framing refuses. -/
theorem illegalCommandsOnlyReport : Obligations.IllegalCommandsOnlyReport := by
  refine fun s w rest hport => ⟨step_of_decodeCause_ne_zero hport, fun hlegal hop hblock => ?samp,
    fun hlegal hop hblock => ?bstart⟩
  case samp =>
    obtain ⟨i, hcode, hstep⟩ := step_of_decodeCause_eq_zero hport hlegal
    obtain ⟨x, rfl⟩ := Instr.eq_samp_of_code (hcode.trans hop)
    exact hstep.trans (exec_samp_of_no_block x hblock)
  case bstart =>
    obtain ⟨i, hcode, hstep⟩ := step_of_decodeCause_eq_zero hport hlegal
    obtain rfl := Instr.eq_bstart_of_code (hcode.trans hop)
    exact hstep.trans (exec_bstart_of_block hblock)

/-- Settles O18: without RESET a step keeps the pair or raises, and raising keeps a latched pair; with RESET both
fields take their reset values. -/
theorem errorsAreSticky : Obligations.ErrorsAreSticky := by
  refine fun s t hstep => ⟨fun hreset herr => ?latched, fun hreset => ?cleared⟩
  case latched =>
    obtain ⟨_, t', hstep', ht⟩ := step_keepsErrorsOrRaises hreset
    obtain rfl : t = t' := by simpa [hstep] using hstep'
    exact ht.latched herr
  case cleared =>
    obtain ⟨rest, hstep'⟩ := step_of_resetIsNext hreset
    obtain rfl : t = resetEvent { s with port := rest } := by simpa [hstep] using hstep'
    exact ⟨resetEvent_err _, resetEvent_errcode _⟩

end Machine

end Sys2Proof
end

section
/-! The encoder against the decoder: every word has one reading, and how many words have one (30_encoding.md R70 to
R79). -/

open Sys2Proof Sys2Proof.Machine Sys2Proof.Claims

namespace Sys2Proof

/-! ## The word of an instruction (30_encoding.md R71 to R73) -/

theorem encode_selects_row (i : Instr) : (opRow i.op).selectedBy (encode i) := by
  cases i with
  | nop => exact Laws.EncodedWordSelectsRow.nop
  | trig => exact Laws.EncodedWordSelectsRow.trig
  | bstart => exact Laws.EncodedWordSelectsRow.bstart
  | samp x => exact Laws.EncodedWordSelectsRow.samp x
  | cfgw a v => exact Laws.EncodedWordSelectsRow.cfgw a v
  | cfgr a => exact Laws.EncodedWordSelectsRow.cfgr a

/-- The sample field is the low half of the data field (30_encoding.md R72). -/
theorem sampleField_eq_dataField_setWidth (w : CommandWord) : sampleField w = (dataField w).setWidth 16 := by
  refine BitVec.eq_of_toNat_eq ?_
  rw [sampleField_toNat, BitVec.toNat_setWidth, dataField_toNat]

/-- The operands read from the word of an instruction are its own. -/
theorem assembleOperands_encode (i : Instr) : assembleOperands i.op (encode i) = i := by
  cases i with
  | nop | trig | bstart => rfl
  | samp x =>
    obtain ⟨-, -, hdata⟩ := commandWord_fields .samp 0#4 (x.setWidth 32)
    simp [Instr.op, assembleOperands, encode, sampleField_eq_dataField_setWidth, hdata]
  | cfgw a v =>
    obtain ⟨-, haddr, hdata⟩ := commandWord_fields .cfgw a v
    simp [Instr.op, assembleOperands, encode, haddr, hdata]
  | cfgr a =>
    obtain ⟨-, haddr, -⟩ := commandWord_fields .cfgr a 0#32
    simp [Instr.op, assembleOperands, encode, haddr]

theorem decode_encode {i : Instr} (h : i.WellFormed) : decode (encode i) = .ok i := by
  refine (decode_eq_ok_iff _ _).2 ⟨encode_selects_row i, ?_, (assembleOperands_encode i).symm⟩
  rw [← assembleOperands_wellFormed_iff, assembleOperands_encode]
  exact h

theorem wellFormed_and_encode_of_decode {w : CommandWord} {i : Instr} (h : decode w = .ok i) :
    i.WellFormed ∧ encode i = w := by
  obtain ⟨-, j, hdec, hj⟩ | ⟨c, hdec, -⟩ := decode_meets_decodeCause w
  · obtain rfl : i = j := by simpa [h] using hdec
    exact hj
  · simp [h] at hdec

theorem decode_eq_ok_iff_encode (w : CommandWord) (i : Instr) :
    decode w = .ok i ↔ i.WellFormed ∧ encode i = w :=
  ⟨wellFormed_and_encode_of_decode, fun ⟨hwf, hw⟩ => hw ▸ decode_encode hwf⟩

theorem encode_injOn : Set.InjOn encode {i | i.WellFormed} := by
  intro i hi j hj h
  have same : decode (encode i) = decode (encode j) := congrArg decode h
  simpa [decode_encode hi, decode_encode hj] using same

/-! ## Counting words (30_encoding.md R79) -/

/-- The instructions of an operation that have a word. -/
def legalInstrs (op : Op) : Set Instr := {i | i.WellFormed ∧ i.op = op}

/-- The words that decode to an operation. -/
def legalWords (op : Op) : Set CommandWord := {w | ∃ i, decode w = .ok i ∧ i.op = op}

/-- Each legal word stands for one instruction, so there are as many as well-formed instructions. -/
theorem ncard_legalWords (op : Op) : (legalWords op).ncard = (legalInstrs op).ncard := by
  have image : legalWords op = encode '' legalInstrs op := by
    ext w
    simp only [legalWords, legalInstrs, decode_eq_ok_iff_encode, Set.mem_ofPred_eq, Set.mem_image]
    grind
  rw [image, (encode_injOn.mono fun i hi => hi.1).ncard_image]

theorem legalWords_disjoint {p q : Op} (h : p ≠ q) : Disjoint (legalWords p) (legalWords q) := by
  refine Set.disjoint_left.2 fun w ⟨i, hi, hp⟩ ⟨j, hj, hq⟩ => h ?_
  obtain rfl : i = j := by simpa [hi] using hj
  exact hp.symm.trans hq

theorem nat_card_bitVec (n : Nat) : Nat.card (BitVec n) = 2 ^ n := by
  rw [Nat.card_congr BitVec.equivFin.toEquiv, Nat.card_fin]

/-- An operation with no operand has one instruction. -/
theorem ncard_legalInstrs_of_unique {op : Op} {i : Instr} (hi : i.WellFormed) (h : ∀ j : Instr, j.op = op ↔ j = i) :
    (legalInstrs op).ncard = 1 := by
  refine Set.ncard_eq_one.2 ⟨i, Set.ext fun j => ?_⟩
  simp only [legalInstrs, h, Set.mem_ofPred_eq, Set.mem_singleton_iff, and_iff_right_iff_imp]
  exact fun hj => hj ▸ hi

theorem ncard_legalInstrs_samp : (legalInstrs .samp).ncard = 2 ^ 16 := by
  have image : legalInstrs .samp = Instr.samp '' Set.univ := by
    ext i
    cases i <;> simp [legalInstrs, Instr.op, Instr.WellFormed, Instr.wellFormed]
  rw [image, Set.ncard_image_of_injective _ fun x y h => by simpa using h, Set.ncard_univ, nat_card_bitVec]

theorem ncard_legalInstrs_cfgw : (legalInstrs .cfgw).ncard = 5 * 2 ^ 32 := by
  have image : legalInstrs .cfgw =
      (fun p : RegAddr × Word32 => Instr.cfgw p.1 p.2) '' ({a | a.toNat ≤ 4} ×ˢ Set.univ) := by
    ext i
    cases i <;> simp [legalInstrs, Instr.op, Instr.WellFormed, Instr.wellFormed]
  have addresses : {a : RegAddr | a.toNat ≤ 4}.ncard = 5 := by
    rw [Set.ncard_eq_toFinset_card']
    decide
  rw [image, Set.ncard_image_of_injective _ fun p q h => by simpa [Prod.ext_iff] using h, Set.ncard_prod, addresses,
    Set.ncard_univ, nat_card_bitVec]

theorem ncard_legalInstrs_cfgr : (legalInstrs .cfgr).ncard = 13 := by
  have image : legalInstrs .cfgr = Instr.cfgr '' {a | a.toNat ≤ 4 ∨ 8 ≤ a.toNat} := by
    ext i
    cases i <;> simp [legalInstrs, Instr.op, Instr.WellFormed, Instr.wellFormed]
  rw [image, Set.ncard_image_of_injective _ fun x y h => by simpa using h, Set.ncard_eq_toFinset_card']
  decide

/-- The number of words of each operation (30_encoding.md R79). -/
def legalCount : Op → Nat
  | .nop | .trig | .bstart => 1
  | .samp => 2 ^ 16
  | .cfgw => 5 * 2 ^ 32
  | .cfgr => 13

theorem ncard_legalWords_eq_legalCount (op : Op) : (legalWords op).ncard = legalCount op := by
  rw [ncard_legalWords]
  cases op with
  | nop => exact ncard_legalInstrs_of_unique (i := .nop) rfl fun j => by cases j <;> simp [Instr.op]
  | trig => exact ncard_legalInstrs_of_unique (i := .trig) rfl fun j => by cases j <;> simp [Instr.op]
  | bstart => exact ncard_legalInstrs_of_unique (i := .bstart) rfl fun j => by cases j <;> simp [Instr.op]
  | samp => exact ncard_legalInstrs_samp
  | cfgw => exact ncard_legalInstrs_cfgw
  | cfgr => exact ncard_legalInstrs_cfgr

/-- The six operations. -/
def allOps : Finset Op := {.nop, .trig, .bstart, .samp, .cfgw, .cfgr}

theorem mem_allOps (op : Op) : op ∈ allOps := by cases op <;> decide

/-- The six kinds of legal words share none, so their numbers add up. -/
theorem ncard_decode_ok : {w | ∃ i, decode w = .ok i}.ncard = 1 + 1 + 1 + 2 ^ 16 + 5 * 2 ^ 32 + 13 := by
  have union : {w | ∃ i, decode w = .ok i} = ⋃ op ∈ (allOps : Set Op), legalWords op := by
    ext w
    simp [legalWords, mem_allOps]
  rw [union, allOps.finite_toSet.ncard_biUnion (fun _ _ => Set.toFinite _) fun p _ q _ => legalWords_disjoint,
    finsum_mem_coe_finset]
  simp only [ncard_legalWords_eq_legalCount]
  rfl

theorem decode_error_compl : {w | ∃ c, decode w = .error c} = {w | ∃ i, decode w = .ok i}ᶜ := by
  ext w
  cases hdec : decode w <;> simp [hdec]

/-! ## Operands and assembled words in numbers (30_encoding.md R76, R81) -/

theorem sample_of_decode {w : CommandWord} {x : Sample} (h : decode w = .ok (.samp x)) :
    x.toNat = w.toNat % 65536 := by
  obtain ⟨-, -, hx⟩ := (decode_eq_ok_iff w _).1 h
  obtain rfl : x = sampleField w := by simpa [Instr.op, assembleOperands] using hx
  rw [sampleField_toNat, dataNumber]
  omega

theorem cfgw_operands_of_decode {w : CommandWord} {a : RegAddr} {v : Word32} (h : decode w = .ok (.cfgw a v)) :
    a.toNat = addrNumber w ∧ v.toNat = dataNumber w := by
  obtain ⟨-, -, hops⟩ := (decode_eq_ok_iff w _).1 h
  obtain ⟨rfl, rfl⟩ : a = addrField w ∧ v = dataField w := by simpa [Instr.op, assembleOperands] using hops
  exact ⟨addrField_toNat w, dataField_toNat w⟩

theorem cfgr_operand_of_decode {w : CommandWord} {a : RegAddr} (h : decode w = .ok (.cfgr a)) :
    a.toNat = addrNumber w := by
  obtain ⟨-, -, hops⟩ := (decode_eq_ok_iff w _).1 h
  obtain rfl : a = addrField w := by simpa [Instr.op, assembleOperands] using hops
  exact addrField_toNat w

/-- A command word as a number (30_encoding.md R70). -/
theorem commandWord_toNat (op : Op) (a : RegAddr) (d : Word32) :
    (commandWord op a d).toNat = op.code.toNat * 2 ^ 36 + a.toNat * 2 ^ 32 + d.toNat := by
  obtain ⟨hop, haddr, hdata⟩ := commandWord_fields op a d
  rw [← BitVec.toNat_inj, opField_toNat, opNumber] at hop
  rw [← BitVec.toNat_inj, addrField_toNat, addrNumber] at haddr
  rw [← BitVec.toNat_inj, dataField_toNat, dataNumber] at hdata
  omega

/-! ## The obligations on command words -/

/-- Settles O2: the word selects its row and holds the operands, and its address passes the checks. -/
theorem decodeOfEncodeIsIdentity : Obligations.DecodeOfEncodeIsIdentity := fun _ => decode_encode

/-- Settles O3: a word that passes the checks is the word of the instruction decoded. -/
theorem encodeOfDecodeIsIdentity : Obligations.EncodeOfDecodeIsIdentity :=
  fun _ _ => wellFormed_and_encode_of_decode

/-- Settles O4: the legal words of an operation are as many as its well-formed instructions; the illegal words are
the complement of all of them. -/
theorem legalWordCounts : Obligations.LegalWordCounts := by
  have count {op : Op} {S : Set CommandWord} (h : S = legalWords op) : S.ncard = legalCount op :=
    h ▸ ncard_legalWords_eq_legalCount op
  refine ⟨count (op := .nop) ?_, count (op := .trig) ?_, count (op := .bstart) ?_, count (op := .samp) ?_,
    count (op := .cfgw) ?_, count (op := .cfgr) ?_, ?illegal⟩
  case illegal =>
    rw [decode_error_compl, Set.ncard_compl _, ncard_decode_ok, nat_card_bitVec]
  all_goals
    ext w
    cases hdec : decode w with
    | error c => simp [legalWords, hdec]
    | ok i => cases i <;> simp [legalWords, hdec, Instr.op]

/-- Settles O7: the operands are the fields of the word, the sample read in two's complement. -/
theorem operandsAreTheFields : Obligations.OperandsAreTheFields := by
  refine ⟨fun w x h => ?_, fun w a v => cfgw_operands_of_decode, fun w a => cfgr_operand_of_decode⟩
  have hx := sample_of_decode h
  rw [BitVec.toInt_eq_toNat_cond]
  split <;> split <;> omega

/-- Settles O9: the numeric forms are the three fields of the word, and the word of a well-formed instruction decodes
to it. -/
theorem assembledWordsAreTheOperations : Obligations.AssembledWordsAreTheOperations := by
  refine ⟨fun x low high => ⟨?sampNumber, _, decode_encode rfl, ?sampValue⟩,
    fun a v _ _ => ⟨?cfgwNumber, fun ha => decode_encode (by simpa [Instr.WellFormed, Instr.wellFormed] using ha)⟩,
    fun a => ⟨?cfgrNumber, fun ha => decode_encode (by simpa [Instr.WellFormed, Instr.wellFormed] using ha)⟩⟩
  case sampNumber =>
    simp only [sampWord, encode, commandWord_toNat, Op.code, BitVec.toNat_setWidth, BitVec.toNat_ofInt,
      BitVec.toNat_ofNat]
    omega
  case sampValue => exact BitVec.toInt_ofInt_eq_self (by decide) (by omega) (by omega)
  case cfgwNumber =>
    simp only [cfgwWord, encode, commandWord_toNat, Op.code, BitVec.toNat_ofInt, BitVec.toNat_ofNat]
    omega
  case cfgrNumber =>
    simp only [cfgrWord, encode, commandWord_toNat, Op.code, BitVec.toNat_ofNat]
    omega

/-- Settles O1: each worked word of R83 is evaluated by the encoder or the decoder. -/
theorem workedEncodingsOfTheSpec : Obligations.WorkedEncodingsOfTheSpec := by
  unfold Obligations.WorkedEncodingsOfTheSpec
  decide

end Sys2Proof
end

section
/-! Response words against their readings: the host reads every response back, and no other word stands for one
(30_encoding.md R74). -/

open Sys2Proof Sys2Proof.Machine Sys2Proof.Claims

namespace Sys2Proof

/-! ## The fields of a response word -/

theorem responseWord_kind (k : BitVec 4) (p : Word32) : (responseWord k p).extractLsb' 32 4 = k := by
  refine BitVec.eq_of_getLsbD_eq fun j hj => ?_
  simp [responseWord_getLsbD, hj]

theorem responseWord_payload (k : BitVec 4) (p : Word32) : (responseWord k p).extractLsb' 0 32 = p := by
  refine BitVec.eq_of_getLsbD_eq fun j hj => ?_
  simp [responseWord_getLsbD, hj]

/-- A response word is made of its fields. -/
theorem responseWord_of_fields (w : ResponseWord) :
    responseWord (w.extractLsb' 32 4) (w.extractLsb' 0 32) = w := by
  refine BitVec.eq_of_getLsbD_eq fun j hj => ?_
  rw [responseWord_getLsbD]
  by_cases h : j < 32
  · simp [h]
  · simp [h, show j - 32 < 4 by omega, show 32 + (j - 32) = j by omega]

/-! ## Payloads -/

theorem samplePayload_sample (y : Sample) (last : Bool) : (samplePayload y last).extractLsb' 0 16 = y := by
  refine BitVec.eq_of_getLsbD_eq fun j hj => ?_
  simp [samplePayload_getLsbD, hj]

theorem samplePayload_last (y : Sample) (last : Bool) : (samplePayload y last).getLsbD 16 = last := by
  rw [samplePayload_getLsbD]
  simp

theorem samplePayload_high (y : Sample) (last : Bool) : (samplePayload y last).extractLsb' 17 15 = 0#15 := by
  refine BitVec.eq_of_getLsbD_eq fun j hj => ?_
  rw [BitVec.getLsbD_extractLsb', samplePayload_getLsbD]
  simp [show ¬ 17 + j < 16 by omega, show 17 + j ≠ 16 by omega]

/-- The bits of a field that R74 says is 0. -/
theorem getLsbD_of_field_zero {p : Word32} {n m j : Nat} (h : p.extractLsb' n m = 0#m) (low : n ≤ j)
    (high : j < n + m) : p.getLsbD j = false := by
  have hbit := congrArg (BitVec.getLsbD · (j - n)) h
  simpa [show j - n < m by omega, show n + (j - n) = j by omega] using hbit

/-- A payload whose upper bits are 0 is that of its sample and its last mark. -/
theorem samplePayload_of_fields {p : Word32} (h : p.extractLsb' 17 15 = 0#15) :
    samplePayload (p.extractLsb' 0 16) (p.getLsbD 16) = p := by
  refine BitVec.eq_of_getLsbD_eq fun j hj => ?_
  rw [samplePayload_getLsbD]
  obtain hlt | rfl | hgt := lt_trichotomy j 16
  · simp [hlt]
  · simp
  · simp only [getLsbD_of_field_zero h (show 17 ≤ j by omega) (by omega)]
    simp [show ¬ j < 16 by omega, show j ≠ 16 by omega]

/-- A payload whose bits from `n` up are 0 is the zero-extension of those below. -/
theorem extract_setWidth_of_high_zero {p : Word32} {n m : Nat} (hwidth : n + m = 32) (h : p.extractLsb' n m = 0#m) :
    (p.extractLsb' 0 n).setWidth 32 = p := by
  refine BitVec.eq_of_getLsbD_eq fun j hj => ?_
  by_cases hn : j < n
  · simp [hj, hn]
  · rw [getLsbD_of_field_zero h (by omega) (by omega)]
    simp [hn]

/-- A bit as a one-bit field. -/
theorem ofBool_getLsbD_zero (p : Word32) : BitVec.ofBool (p.getLsbD 0) = p.extractLsb' 0 1 := by
  refine BitVec.eq_of_getLsbD_eq fun j hj => ?_
  obtain rfl : j = 0 := by omega
  simp

theorem IllegalCause.code_of_ofCode {k : BitVec 3} {c : IllegalCause} (h : IllegalCause.ofCode k = some c) :
    c.code = k := by
  revert k c
  decide

/-! ## Reading back -/

theorem ofWord_word (r : Response) : Response.ofWord r.word = some r := by
  cases r with
  | ack => rfl
  | blk active => cases active <;> rfl
  | smp y last =>
    simp only [Response.ofWord, Response.word, responseWord_kind, responseWord_payload, samplePayload_sample,
      samplePayload_last, samplePayload_high]
    rfl
  | rd v => simp [Response.ofWord, Response.word, responseWord_kind, responseWord_payload]
  | ill c => cases c <;> rfl

theorem word_of_ofWord {w : ResponseWord} {r : Response} (h : Response.ofWord w = some r) : r.word = w := by
  rw [← responseWord_of_fields w] at h ⊢
  generalize w.extractLsb' 32 4 = k at h ⊢
  generalize w.extractLsb' 0 32 = p at h ⊢
  have kind {n : Nat} (hn : k.toNat = n) : k = BitVec.ofNat 4 n := by simp [← hn]
  simp only [Response.ofWord, responseWord_kind, responseWord_payload] at h
  split at h
  case h_1 hk =>
    obtain ⟨rfl, rfl⟩ : p = 0#32 ∧ .ack = r := by simpa using h
    rw [kind hk, Response.word]
  case h_2 hk =>
    obtain ⟨hhigh, rfl⟩ : p.extractLsb' 1 31 = 0#31 ∧ .blk (p.getLsbD 0) = r := by
      simpa only [Option.ite_none_right_eq_some, Option.some.injEq] using h
    rw [kind hk, Response.word, ofBool_getLsbD_zero, extract_setWidth_of_high_zero rfl hhigh]
  case h_3 hk =>
    obtain ⟨hhigh, rfl⟩ : p.extractLsb' 17 15 = 0#15 ∧ .smp (p.extractLsb' 0 16) (p.getLsbD 16) = r := by
      simpa only [Option.ite_none_right_eq_some, Option.some.injEq] using h
    rw [kind hk, Response.word, samplePayload_of_fields hhigh]
  case h_4 hk =>
    obtain rfl : .rd p = r := by simpa using h
    rw [kind hk, Response.word]
  case h_5 hk =>
    obtain ⟨hhigh, c, hc, rfl⟩ :
        p.extractLsb' 3 29 = 0#29 ∧ ∃ c, IllegalCause.ofCode (p.extractLsb' 0 3) = some c ∧ .ill c = r := by
      simpa only [Option.ite_none_right_eq_some, Option.map_eq_some_iff] using h
    rw [kind hk, Response.word, IllegalCause.code_of_ofCode hc, extract_setWidth_of_high_zero rfl hhigh]
  case h_6 => simp at h

/-- Settles O8: the fields of a response word are what it was made of, and each payload that R74 allows is that of
one response. -/
theorem responseWordsReadBack : Obligations.ResponseWordsReadBack :=
  ⟨ofWord_word, fun _ _ => word_of_ofWord⟩

end Sys2Proof
end

section
/-! What an instruction does before it answers, said once as a relation: the effect of each operation on the record
and its response. The rules about all instructions are read off its cases. -/

open Sys2Proof Sys2Proof.Machine Sys2Proof.Claims

namespace Sys2Proof.Machine

/-! ## Frames of the shared operations -/

theorem trigger_frame (s : State) :
    SameConfig s (trigger s) ∧ SameFraming s (trigger s) ∧ (trigger s).port = s.port ∧
      (trigger s).responses = s.responses := by
  obtain ⟨-, h⟩ | ⟨-, -, -, h⟩ | ⟨-, -, h⟩ := trigger_cases s <;> rw [h] <;>
    simp [SameConfig, SameFraming, enterAttack, enterForced]

theorem regWrite_frame (r : Reg) (v : Word32) (s : State) :
    SameWorking s (regWrite r v s) ∧ SameFraming s (regWrite r v s) ∧ (regWrite r v s).port = s.port ∧
      (regWrite r v s).responses = s.responses := by
  cases r <;> simp [SameWorking, SameFraming, regWrite]

theorem countSample_frame (P : Params) (s : State) :
    SameWorking s (countSample P s) ∧ SameConfig s (countSample P s) ∧ (countSample P s).port = s.port ∧
      (countSample P s).responses = s.responses := by
  obtain ⟨-, h⟩ | ⟨-, h⟩ := countSample_cases P s <;> rw [h] <;> simp [SameWorking, SameConfig]

/-- A sample touches the working registers and may open the tail. -/
theorem processSample_frame (P : Params) (x : Sample) (s : State) :
    SameConfig s (processSample P x s).2 ∧ (processSample P x s).2.inBlock = s.inBlock ∧
      (processSample P x s).2.blockPos = s.blockPos ∧ (processSample P x s).2.port = s.port ∧
      (processSample P x s).2.responses = s.responses := by
  obtain ⟨hattack, hhold, hdecay, hforced, hmax, hblock, -, hpos, -, -, hport, hresp⟩ := settle_frame s
  obtain ⟨-, h⟩ | ⟨-, -, h⟩ | ⟨-, -, h⟩ := processSample_cases P x s <;>
    simp [h, SameConfig, hattack, hhold, hdecay, hforced, hmax, hblock, hpos, hport, hresp]

theorem isLastSample_processSample (P : Params) (x : Sample) (s : State) :
    isLastSample P (processSample P x s).2 = isLastSample P s := by
  obtain ⟨-, -, hpos, -⟩ := processSample_frame P x s
  rw [isLastSample, hpos, isLastSample]

/-! ## Well-formed addresses, by the register they name (30_encoding.md R75) -/

@[simp] theorem cfgw_wellFormed_iff (a : RegAddr) (v : Word32) :
    (Instr.cfgw a v).WellFormed ↔ ∃ r, Reg.ofAddr a = some r ∧ r.readOnly = false := by
  simp [Reg.writable_iff, Instr.WellFormed, Instr.wellFormed]

@[simp] theorem cfgr_wellFormed_iff (a : RegAddr) : (Instr.cfgr a).WellFormed ↔ ∃ r, Reg.ofAddr a = some r := by
  rw [← Option.isSome_iff_exists, Option.isSome_iff_ne_none, ne_eq, Reg.ofAddr_eq_none_iff]
  simp only [Instr.WellFormed, Instr.wellFormed, decide_eq_true_eq]
  omega

/-! ## The effect of an instruction -/

/-- `Effect i s r u`: executing `i` in `s` answers `r` and leaves `u` but for that answer. The cases are the rows of
the opcode table and their refusals. -/
inductive Effect : Instr → State → Response → State → Prop
  | nop (s) : Effect .nop s .ack s
  | trig (s) : Effect .trig s .ack (trigger s)
  | bstart {s} (hblock : s.inBlock = false) : Effect .bstart s (.blk (blockActive s)) (openBlock s)
  | bstartRefused {s} (hblock : s.inBlock = true) : Effect .bstart s (.ill .illInBlk) (recordError .illInBlk s)
  | samp (x) {s} (hblock : s.inBlock = true) :
      Effect (.samp x) s (.smp (processSample Config.params x s).1 (isLastSample Config.params s))
        (countSample Config.params (processSample Config.params x s).2)
  | sampRefused (x) {s} (hblock : s.inBlock = false) :
      Effect (.samp x) s (.ill .illNoBlk) (recordError .illNoBlk s)
  | cfgw {a r} (v s) (haddr : Reg.ofAddr a = some r) (hwritable : r.readOnly = false) :
      Effect (.cfgw a v) s .ack (regWrite r v s)
  | cfgwReserved {a} (v s) (haddr : Reg.ofAddr a = none) :
      Effect (.cfgw a v) s (.ill .illAddr) (recordError .illAddr s)
  | cfgwReadOnly {a r} (v s) (haddr : Reg.ofAddr a = some r) (hreadOnly : r.readOnly = true) :
      Effect (.cfgw a v) s (.ill .illRo) (recordError .illRo s)
  | cfgr {a r} (s) (haddr : Reg.ofAddr a = some r) : Effect (.cfgr a) s (.rd (regRead r s)) s
  | cfgrReserved {a} (s) (haddr : Reg.ofAddr a = none) :
      Effect (.cfgr a) s (.ill .illAddr) (recordError .illAddr s)

theorem exec_of_effect {i : Instr} {s u : State} {r : Response} (h : Effect i s r u) :
    exec i s = .next (respond r u) := by
  cases h with
  | nop | trig => rfl
  | bstart hblock => simp [exec, execBstart, blockStart, hblock]
  | bstartRefused hblock => simp [exec, execBstart, blockStart, hblock, raiseIllegal]
  | samp x hblock =>
    simp [exec, execSamp, sampleCommand_of_block hblock, isLastSample_processSample]
  | sampRefused x hblock => simp [exec, execSamp, sampleCommand, hblock, raiseIllegal]
  | cfgw v s haddr hwritable => simp [exec, execCfgw, haddr, hwritable]
  | cfgwReserved v s haddr => simp [exec, execCfgw, haddr, raiseIllegal]
  | cfgwReadOnly v s haddr hreadOnly => simp [exec, execCfgw, haddr, hreadOnly, raiseIllegal]
  | cfgr s haddr => simp [exec, execCfgr, haddr]
  | cfgrReserved s haddr => simp [exec, execCfgr, haddr, raiseIllegal]

theorem exists_effect (i : Instr) (s : State) : ∃ r u, Effect i s r u := by
  cases i with
  | nop => exact ⟨_, _, .nop s⟩
  | trig => exact ⟨_, _, .trig s⟩
  | bstart =>
    cases hblock : s.inBlock with
    | false => exact ⟨_, _, .bstart hblock⟩
    | true => exact ⟨_, _, .bstartRefused hblock⟩
  | samp x =>
    cases hblock : s.inBlock with
    | false => exact ⟨_, _, .sampRefused x hblock⟩
    | true => exact ⟨_, _, .samp x hblock⟩
  | cfgw a v =>
    cases haddr : Reg.ofAddr a with
    | none => exact ⟨_, _, .cfgwReserved v s haddr⟩
    | some r =>
      cases hr : r.readOnly with
      | false => exact ⟨_, _, .cfgw v s haddr hr⟩
      | true => exact ⟨_, _, .cfgwReadOnly v s haddr hr⟩
  | cfgr a =>
    cases haddr : Reg.ofAddr a with
    | none => exact ⟨_, _, .cfgrReserved s haddr⟩
    | some r => exact ⟨_, _, .cfgr s haddr⟩

/-- An execution is an effect followed by its answer. -/
theorem exec_eq_next_iff (i : Instr) (s t : State) :
    exec i s = .next t ↔ ∃ r u, Effect i s r u ∧ t = respond r u := by
  constructor
  · intro h
    obtain ⟨r, u, heff⟩ := exists_effect i s
    rw [exec_of_effect heff] at h
    exact ⟨r, u, heff, by simpa using h.symm⟩
  · rintro ⟨r, u, heff, rfl⟩
    exact exec_of_effect heff

/-! ## What every effect leaves unchanged -/

section
variable {i : Instr} {s u : State} {r : Response} (h : Effect i s r u)
include h

/-- The ports belong to the step and the answer, not to the effect. -/
theorem Effect.ports : u.port = s.port ∧ u.responses = s.responses := by
  cases h with
  | nop | cfgr => exact ⟨rfl, rfl⟩
  | bstart | bstartRefused | sampRefused | cfgwReserved | cfgwReadOnly | cfgrReserved => exact ⟨rfl, rfl⟩
  | trig => exact (trigger_frame s).2.2
  | samp x =>
    obtain ⟨-, -, -, hport, hresp⟩ := processSample_frame Config.params x s
    obtain ⟨-, -, hport', hresp'⟩ := countSample_frame Config.params (processSample Config.params x s).2
    exact ⟨hport'.trans hport, hresp'.trans hresp⟩
  | @cfgw _ r v => exact (regWrite_frame r v s).2.2

theorem Effect.sameConfig (hi : ∀ a v, i ≠ .cfgw a v) : SameConfig s u := by
  cases h with
  | nop | cfgr => simp [SameConfig]
  | bstart | bstartRefused | sampRefused | cfgrReserved => simp [SameConfig]
  | trig => exact (trigger_frame s).1
  | samp x =>
    obtain ⟨hconfig, -⟩ := processSample_frame Config.params x s
    obtain ⟨-, hconfig', -⟩ := countSample_frame Config.params (processSample Config.params x s).2
    simp_all [SameConfig]
  | cfgw | cfgwReserved | cfgwReadOnly => exact absurd rfl (hi _ _)

theorem Effect.sameWorking (hi : i ≠ .trig ∧ ∀ x, i ≠ .samp x) : SameWorking s u := by
  cases h with
  | nop | cfgr => simp [SameWorking]
  | bstart | bstartRefused | cfgwReserved | cfgwReadOnly | cfgrReserved => simp [SameWorking]
  | trig => exact absurd rfl hi.1
  | samp x | sampRefused x => exact absurd rfl (hi.2 x)
  | @cfgw _ r v => exact (regWrite_frame r v s).1

theorem Effect.sameFraming (hi : i ≠ .bstart ∧ ∀ x, i ≠ .samp x) : SameFraming s u := by
  cases h with
  | nop | cfgr => simp [SameFraming]
  | cfgwReserved | cfgwReadOnly | cfgrReserved => simp [SameFraming]
  | trig => exact (trigger_frame s).2.1
  | bstart | bstartRefused => exact absurd rfl hi.1
  | samp x | sampRefused x => exact absurd rfl (hi.2 x)
  | @cfgw _ r v => exact (regWrite_frame r v s).2.1

/-- A well-formed instruction is refused only by the block framing. -/
theorem Effect.sameErrors (hwf : i.WellFormed) (hi : i ≠ .bstart ∧ ∀ x, i ≠ .samp x) : SameErrors s u := by
  cases h with
  | nop | cfgr => exact ⟨rfl, rfl⟩
  | trig => exact trigger_sameErrors s
  | bstart | bstartRefused => exact absurd rfl hi.1
  | samp x | sampRefused x => exact absurd rfl (hi.2 x)
  | @cfgw _ r v => exact regWrite_sameErrors r v s
  | cfgwReserved v s haddr => simp [haddr] at hwf
  | cfgwReadOnly v s haddr hreadOnly => simp [haddr, hreadOnly] at hwf
  | cfgrReserved s haddr => simp [haddr] at hwf

end

/-! ## Each answer in numbers (30_encoding.md R74) -/

/-- The response word of R74 as a number. -/
def answerNumber : Response → Nat
  | .ack => 0
  | .blk active => 0x100000000 + active.toNat
  | .smp y last => 0x200000000 + last.toNat * 65536 + y.toNat
  | .rd v => 0x300000000 + v.toNat
  | .ill c => 0xF00000000 + c.code.toNat

theorem respond_eq_answered (r : Response) (s : State) : respond r s = answered (answerNumber r) s := by
  cases r with
  | ack => exact respond_ack_eq_answered s
  | blk active => exact respond_blk_eq_answered active s
  | smp y last => exact respond_smp_eq_answered y last s
  | rd v => exact respond_rd_eq_answered v s
  | ill c => cases c <;> rfl

/-- The kind and payload of R74 for a well-formed instruction executed in a state, as a number. -/
def AnswerOf : Instr → State → Nat → Prop
  | .nop, _, v | .trig, _, v | .cfgw _ _, _, v => v = 0
  | .bstart, s, v =>
    v = if s.inBlock = true then 0xF00000006 else if s.state = .idle then 0x100000000 else 0x100000001
  | .samp _, s, v =>
    if s.inBlock = true then
      ∃ y : Sample, v = 0x200000000 + (if s.blockPos.toNat = Config.params.blockLen - 1 then 65536 else 0) + y.toNat
    else v = 0xF00000005
  | .cfgr a, s, v => ∃ r : Word32, mapRead a.toNat s = some r.toNat ∧ v = 0x300000000 + r.toNat

theorem Effect.answerOf {i : Instr} {s u : State} {r : Response} (h : Effect i s r u) (hwf : i.WellFormed) :
    AnswerOf i s (answerNumber r) := by
  cases h with
  | nop | trig | cfgw => rfl
  | bstart hblock => by_cases hidle : s.state = .idle <;> simp [AnswerOf, answerNumber, blockActive, hblock, hidle]
  | bstartRefused hblock => simp [AnswerOf, answerNumber, IllegalCause.code, hblock]
  | samp x hblock =>
    refine (if_pos hblock).mpr ⟨(processSample Config.params x s).1, ?_⟩
    by_cases hlast : s.blockPos.toNat = Config.params.blockLen - 1 <;> simp [answerNumber, isLastSample, hlast]
  | sampRefused x hblock => simp [AnswerOf, answerNumber, IllegalCause.code, hblock]
  | cfgr s haddr =>
    obtain rfl := Reg.addr_of_ofAddr _ _ haddr
    exact ⟨_, mapRead_addr _ _, rfl⟩
  | cfgwReserved v s haddr => simp [haddr] at hwf
  | cfgwReadOnly v s haddr hreadOnly => simp [haddr, hreadOnly] at hwf
  | cfgrReserved s haddr => simp [haddr] at hwf

/-! ## The obligations on single steps -/

/-- Settles O49: read off the effect of the instruction, one group of the record at a time. -/
theorem eachOperationStaysInItsGroups : Obligations.EachOperationStaysInItsGroups := by
  intro i s t hwf hexec
  obtain ⟨r, u, heff, rfl⟩ := (exec_eq_next_iff i s t).1 hexec
  obtain ⟨hport, hresp⟩ := heff.ports
  exact ⟨hport, ⟨r.word, by simp [hresp]⟩, heff.sameConfig, heff.sameWorking,
    fun hi => ⟨heff.sameFraming hi, heff.sameErrors hwf hi⟩⟩

/-- Settles O10: the arm of the step for a command word that decodes. -/
theorem stepRunsTheDecodedCommand : Obligations.StepRunsTheDecodedCommand :=
  fun _ _ _ _ hport hdec => step_of_decode_ok hport hdec

theorem exists_exec (i : Instr) (s : State) : ∃ t, exec i s = .next t := by
  obtain ⟨r, u, heff⟩ := exists_effect i s
  exact ⟨_, exec_of_effect heff⟩

/-- Settles O11: every instruction has an effect, and every other step is an illegal outcome, RESET or idle. -/
theorem nothingStopsTheMachine : Obligations.NothingStopsTheMachine := by
  refine ⟨fun s => ?_, exists_exec⟩
  obtain ⟨-, h⟩ | ⟨_, i, rest, -, -, h⟩ | ⟨_, _, _, -, -, h⟩ | ⟨_, -, h⟩ := step_cases s
  · exact ⟨_, h⟩
  · exact h ▸ exists_exec i { s with port := rest }
  · exact ⟨_, h⟩
  · exact ⟨_, h⟩

/-- Settles O12: with an empty port nothing is fetched. -/
theorem waitsWhenNothingIsPresented : Obligations.WaitsWhenNothingIsPresented := by
  intro s hport
  simp [step, (fetch_eq_none_iff s).2 hport]

theorem step_of_reset {s : State} {rest : List Input}
    (h : s.port = .reset :: rest ∨ ∃ w, s.port = .resetWith w :: rest) :
    step s = .next (resetEvent { s with port := rest }) := by
  obtain hport | ⟨w, hport⟩ := h <;> simp [step, fetch, hport]

/-- Settles O20: the RESET event, written out field by field. -/
theorem resetEventSetsEveryField : Obligations.ResetEventSetsEveryField := fun _ _ h => step_of_reset h

/-- Settles O13: an illegal word answers its decode cause; a legal one the response of its effect. -/
theorem everyCommandAnswersOnce : Obligations.EveryCommandAnswersOnce := by
  intro s w rest hport
  obtain ⟨hlegal, i, hdec, hwf, -⟩ | ⟨c, hdec, hc⟩ := decode_meets_decodeCause w
  · obtain ⟨r, u, heff⟩ := exists_effect i { s with port := rest }
    obtain ⟨-, hresp⟩ := heff.ports
    have hop := opNumber_of_decode hdec
    have hanswer := heff.answerOf hwf
    refine ⟨_, answerNumber r, (step_of_decode_ok hport hdec).trans (exec_of_effect heff), ?_, ?_⟩
    · rw [respond_eq_answered, answered, hresp]
    rw [if_neg (by simpa using hlegal), hop]
    cases i with
    | nop | trig | bstart | samp | cfgw => exact hanswer
    | cfgr a => exact cfgr_operand_of_decode hdec ▸ hanswer
  · have hillegal : decodeCause w ≠ 0 := hc ▸ c.code_toNat_ne_zero
    exact ⟨_, _, step_of_decodeCause_ne_zero hport hillegal, rfl, by simp [hillegal]⟩

end Sys2Proof.Machine
end

section
/-! Noninterference: the error pair, the inputs still to come and the past answers stand beside the record. No
operation reads them but `CFGR` of `STATUS`, so every effect commutes with changing them (10_state.md R29, 20_memory.md
R58, 60_exceptions.md R181). -/

open Sys2Proof Sys2Proof.Machine Sys2Proof.Claims

namespace Sys2Proof.Machine

/-! ## What stands beside the record -/

/-- `s` with another error pair, other inputs to come and other past answers. -/
def beside (err : Bool) (code : BitVec 3) (port : List Input) (answers : List ResponseWord) (s : State) : State :=
  { s with err := err, errcode := code, port := port, responses := answers }

/-- `s` with other inputs to come and other past answers. -/
def inStream (port : List Input) (answers : List ResponseWord) (s : State) : State :=
  beside s.err s.errcode port answers s

theorem sameButErrors_iff (s t : State) :
    SameButErrors s t ↔ ∃ err code answers, t = beside err code s.port answers s :=
  ⟨fun h => ⟨_, _, _, h.symm⟩, fun ⟨_, _, _, h⟩ => h ▸ rfl⟩

section
variable (err : Bool) (code : BitVec 3) (port : List Input) (answers : List ResponseWord)

/-! ## Every operation commutes with changing it -/

theorem transition_beside (s : State) :
    transition (beside err code port answers s) = beside err code port answers (transition s) := by
  have same_phase : (beside err code port answers s).state = s.state := rfl
  unfold transition
  rw [same_phase]
  cases s.state with
  | idle | hold | forced => rfl
  | attack | decay =>
    dsimp only
    rw [apply_ite (beside err code port answers)]
    rfl

theorem settleWithin_beside (n : Nat) (s : State) :
    settleWithin n (beside err code port answers s) = beside err code port answers (settleWithin n s) := by
  induction n generalizing s with
  | zero => rfl
  | succ n ih =>
    have same_due : transitionDue (beside err code port answers s) = transitionDue s := rfl
    cases hdue : transitionDue s with
    | false => rw [settleWithin_of_not_due _ s hdue, settleWithin_of_not_due _ _ (same_due.trans hdue)]
    | true =>
      rw [settleWithin_succ_of_due n s hdue, settleWithin_succ_of_due n _ (same_due.trans hdue), transition_beside,
        ih]

theorem settle_beside (s : State) :
    settle (beside err code port answers s) = beside err code port answers (settle s) :=
  settleWithin_beside err code port answers (settleBound s) s

theorem processSample_beside (P : Params) (x : Sample) (s : State) :
    processSample P x (beside err code port answers s) =
      (processSample P x s).map id (beside err code port answers) := by
  simp only [processSample, settle_beside, apply_ite (Prod.map id (beside err code port answers))]
  rfl

theorem countSample_beside (P : Params) (s : State) :
    countSample P (beside err code port answers s) = beside err code port answers (countSample P s) := by
  simp only [countSample, apply_ite (beside err code port answers)]
  rfl

theorem trigger_beside (s : State) :
    trigger (beside err code port answers s) = beside err code port answers (trigger s) := by
  simp only [trigger, apply_ite (beside err code port answers)]
  rfl

theorem regWrite_beside (r : Reg) (v : Word32) (s : State) :
    regWrite r v (beside err code port answers s) = beside err code port answers (regWrite r v s) := by
  cases r <;> rfl

/-! ## The effect of an instruction beside other errors and other streams -/

/-- Latching a cause depends on the error pair alone. -/
theorem recordError_errcode_beside {err : Bool} {code : BitVec 3} {s : State} (he : err = s.err) (hc : code = s.errcode)
    (c : IllegalCause) :
    (recordError c (beside err code port answers s)).errcode = (recordError c s).errcode := by
  subst he hc
  rfl

/-- An instruction treats the envelope, the block and the configuration the same whatever stands beside them, and the
error pair and its answer too when the pair beside them is the same. -/
theorem Effect.beside {i : Instr} {s u : State} {r : Response} (h : Effect i s r u) :
    ∃ r' err' code', Effect i (beside err code port answers s) r' (Machine.beside err' code' port answers u) ∧
      (err = s.err → code = s.errcode → r' = r ∧ err' = u.err ∧ code' = u.errcode) := by
  cases h with
  | nop => exact ⟨_, _, _, .nop _, fun he hc => ⟨rfl, he, hc⟩⟩
  | trig =>
    obtain ⟨err_kept, code_kept⟩ := trigger_sameErrors s
    exact ⟨_, _, _, trigger_beside err code port answers s ▸ .trig _,
      fun he hc => ⟨rfl, he.trans err_kept, hc.trans code_kept⟩⟩
  | bstart hblock => exact ⟨_, err, code, .bstart hblock, fun he hc => ⟨rfl, he, hc⟩⟩
  | bstartRefused hblock =>
    exact ⟨_, _, _, .bstartRefused hblock,
      fun he hc => ⟨rfl, rfl, recordError_errcode_beside port answers he hc _⟩⟩
  | samp x hblock =>
    have heff := Effect.samp x (s := Machine.beside err code port answers s) hblock
    rw [processSample_beside, Prod.map_fst, Prod.map_snd, countSample_beside] at heff
    obtain ⟨err_rendered, code_rendered⟩ := processSample_sameErrors Config.params x s
    obtain ⟨err_counted, code_counted⟩ := countSample_sameErrors Config.params (processSample Config.params x s).2
    exact ⟨_, _, _, heff, fun he hc =>
      ⟨rfl, he.trans (err_rendered.trans err_counted), hc.trans (code_rendered.trans code_counted)⟩⟩
  | sampRefused x hblock =>
    exact ⟨_, _, _, .sampRefused x hblock,
      fun he hc => ⟨rfl, rfl, recordError_errcode_beside port answers he hc _⟩⟩
  | cfgw v s haddr hwritable =>
    obtain ⟨err_kept, code_kept⟩ := regWrite_sameErrors _ v s
    exact ⟨_, _, _, regWrite_beside err code port answers _ v s ▸ .cfgw v _ haddr hwritable,
      fun he hc => ⟨rfl, he.trans err_kept, hc.trans code_kept⟩⟩
  | cfgwReserved v s haddr =>
    exact ⟨_, _, _, .cfgwReserved v _ haddr,
      fun he hc => ⟨rfl, rfl, recordError_errcode_beside port answers he hc _⟩⟩
  | cfgwReadOnly v s haddr hreadOnly =>
    exact ⟨_, _, _, .cfgwReadOnly v _ haddr hreadOnly,
      fun he hc => ⟨rfl, rfl, recordError_errcode_beside port answers he hc _⟩⟩
  | @cfgr a r s haddr =>
    exact ⟨_, _, _, .cfgr _ haddr, fun he hc => ⟨by subst he hc; cases r <;> rfl, he, hc⟩⟩
  | cfgrReserved s haddr =>
    exact ⟨_, _, _, .cfgrReserved _ haddr,
      fun he hc => ⟨rfl, rfl, recordError_errcode_beside port answers he hc _⟩⟩

end

/-- The inputs to come and the past answers change neither the answer nor what is left. -/
theorem Effect.inStream {i : Instr} {s u : State} {r : Response} (h : Effect i s r u) (port : List Input)
    (answers : List ResponseWord) : Effect i (inStream port answers s) r (Machine.inStream port answers u) := by
  obtain ⟨r', err', code', heff, hsame⟩ := h.beside s.err s.errcode port answers
  obtain ⟨rfl, rfl, rfl⟩ := hsame rfl rfl
  exact heff

/-! ## The step, by the input taken -/

/-- What a step does once it has taken an input (00_scope.md R12, 70_reset_and_hazards.md R200). -/
def accept : Input → State → Host.Outcome State Fault Refusal
  | .command w, s =>
    match decode w with
    | .ok i => exec i s
    | .error c => .next (raiseIllegal c s)
  | .reset, s | .resetWith _, s => .next (resetEvent s)

theorem step_of_port_cons {s : State} {i : Input} {rest : List Input} (h : s.port = i :: rest) :
    step s = accept i { s with port := rest } := by
  cases i with
  | command w => cases hdec : decode w <;> simp [step, fetch, h, accept, hdec]
  | reset | resetWith => simp [step, fetch, h, accept]

/-- Everything a step can do with the input it has taken. -/
theorem accept_cases {i : Input} {s t : State} (h : accept i s = .next t) :
    (∃ w j r u, i = .command w ∧ decode w = .ok j ∧ Effect j s r u ∧ t = respond r u) ∨
    (∃ w c, i = .command w ∧ decode w = .error c ∧ t = raiseIllegal c s) ∨
    ((i = .reset ∨ ∃ w, i = .resetWith w) ∧ t = resetEvent s) := by
  cases i with
  | command w =>
    cases hdec : decode w with
    | ok j =>
      obtain ⟨r, u, heff, rfl⟩ := (exec_eq_next_iff j s t).1 (by simpa [accept, hdec] using h)
      exact .inl ⟨w, j, r, u, rfl, hdec, heff, rfl⟩
    | error c => exact .inr (.inl ⟨w, c, rfl, hdec, by simpa [accept, hdec] using h.symm⟩)
  | reset => exact .inr (.inr ⟨.inl rfl, by simpa [accept] using h.symm⟩)
  | resetWith w => exact .inr (.inr ⟨.inr ⟨w, rfl⟩, by simpa [accept] using h.symm⟩)

/-- What comes later and what was answered before change neither the next state nor its new answers. -/
theorem accept_inStream {i : Input} {s t : State} (h : accept i s = .next t) :
    t.port = s.port ∧ ∃ new, t.responses = s.responses ++ new ∧
      ∀ port answers, accept i (inStream port answers s) = .next (inStream port (answers ++ new) t) := by
  obtain ⟨w, j, r, u, rfl, hdec, heff, rfl⟩ | ⟨w, c, rfl, hdec, rfl⟩ | ⟨hreset, rfl⟩ := accept_cases h
  · obtain ⟨hport, hresp⟩ := heff.ports
    refine ⟨hport, [r.word], by simp [hresp], fun port answers => ?_⟩
    simp only [accept, hdec]
    exact exec_of_effect (heff.inStream port answers)
  · exact ⟨rfl, _, rfl, fun port answers => by simp only [accept, hdec]; rfl⟩
  · refine ⟨rfl, [], by simp, fun port answers => ?_⟩
    obtain rfl | ⟨w, rfl⟩ := hreset <;> simp only [accept, List.append_nil] <;> rfl

/-- Other errors and past answers lead to the same envelope, block and configuration. -/
theorem accept_sameButErrors {i : Input} {s t s' : State} (hst : SameButErrors s t) (h : accept i s = .next s') :
    ∃ t', accept i t = .next t' ∧ SameButErrors s' t' := by
  obtain ⟨err, code, answers, rfl⟩ := (sameButErrors_iff s t).1 hst
  obtain ⟨w, j, r, u, rfl, hdec, heff, rfl⟩ | ⟨w, c, rfl, hdec, rfl⟩ | ⟨hreset, rfl⟩ := accept_cases h
  · obtain ⟨hport, -⟩ := heff.ports
    obtain ⟨r', err', code', heff', -⟩ := heff.beside err code s.port answers
    refine ⟨_, by simpa only [accept, hdec] using exec_of_effect heff', (sameButErrors_iff _ _).2 ?_⟩
    exact ⟨err', code', answers ++ [r'.word], by rw [respond_port, hport]; rfl⟩
  · exact ⟨_, by simp only [accept, hdec]; rfl, rfl⟩
  · refine ⟨resetEvent (beside err code s.port answers s), ?_, rfl⟩
    obtain rfl | ⟨w, rfl⟩ := hreset <;> rfl

/-! ## The obligations -/

/-- Settles O14: a step accepts the oldest input in the state that has taken it, and accepting commutes with what
comes later. -/
theorem oneInputPerStep : Obligations.OneInputPerStep := by
  intro s t i rest more hport hstep
  rw [step_of_port_cons hport] at hstep
  obtain ⟨hkept, new, hnew, hstream⟩ := accept_inStream hstep
  refine ⟨hkept, (step_of_port_cons rfl).trans ((hstream more s.responses).trans ?_)⟩
  rw [inStream, beside, ← hnew]

/-- Settles O15: accepting an input commutes with what was answered before. -/
theorem responsesDoNotFeedBack : Obligations.ResponsesDoNotFeedBack := by
  intro s t earlier hstep
  by_cases hport : s.port = []
  · obtain rfl : t = s := by simpa [waitsWhenNothingIsPresented s hport] using hstep.symm
    exact waitsWhenNothingIsPresented _ hport
  · obtain ⟨i, rest, hport⟩ := List.exists_cons_of_ne_nil hport
    rw [step_of_port_cons hport] at hstep
    obtain ⟨hkept, new, hnew, hstream⟩ := accept_inStream hstep
    have htake := step_of_port_cons (s := { s with responses := earlier ++ s.responses }) hport
    refine htake.trans ((hstream rest (earlier ++ s.responses)).trans ?_)
    rw [List.append_assoc, ← hnew, ← show t.port = rest from hkept]
    rfl

/-- Settles O17: accepting an input commutes with the error pair and past answers; a refused command is the illegal
outcome, which writes nothing else. -/
theorem errorsNeverDisturbTheEnvelope : Obligations.ErrorsNeverDisturbTheEnvelope := by
  refine ⟨fun s t s' hst hstep => ?_, fun s w rest hport hrefused => ?_⟩
  · obtain ⟨err, code, answers, rfl⟩ := (sameButErrors_iff s t).1 hst
    by_cases hport : s.port = []
    · obtain rfl : s' = s := by simpa [waitsWhenNothingIsPresented s hport] using hstep.symm
      exact ⟨_, waitsWhenNothingIsPresented _ hport, hst⟩
    · obtain ⟨i, rest, hport⟩ := List.exists_cons_of_ne_nil hport
      rw [step_of_port_cons hport] at hstep
      rw [step_of_port_cons (s := beside err code s.port answers s) hport]
      exact accept_sameButErrors rfl hstep
  · obtain ⟨hillegal, hsamp, hbstart⟩ := illegalCommandsOnlyReport s w rest hport
    by_cases hcause : decodeCause w = 0
    · obtain ⟨c, hdec⟩ | ⟨hop, hblock⟩ | ⟨hop, hblock⟩ := hrefused
      · obtain ⟨-, i, hok, -⟩ | ⟨c', -, hc⟩ := decode_meets_decodeCause w
        · simp [hdec] at hok
        · exact absurd (hc.trans hcause) c'.code_toNat_ne_zero
      · exact ⟨_, hsamp hcause hop hblock, rfl⟩
      · exact ⟨_, hbstart hcause hop hblock, rfl⟩
    · exact ⟨_, hillegal hcause, rfl⟩

/-- Settles O23: the restart of R101 writes every working register, so nothing of the old ones is left. -/
theorem trigInIdleForgetsHistory : Obligations.TrigInIdleForgetsHistory := by
  intro s t hs ht hconfig hframing herrors hport
  have restart {v : State} (hv : v.state = .idle) :
      trigger v = { enterAttack v with retriggerCount := v.maxRetriggers } := by simp [trigger, hv]
  obtain ⟨hattack, hhold, hdecay, hforced, hmax⟩ := hconfig
  obtain ⟨hblock, htail, hpos⟩ := hframing
  obtain ⟨herr, hcode⟩ := herrors
  refine ⟨trigger s, ?_, ?_⟩ <;>
    simp [exec, execTrig, respond, enterAttack, enterPhase, Response.word, responseWord, *]

end Sys2Proof.Machine
end

section
/-! The datapath in numbers: the stored increment and the sweep it drives, the blend of two table entries, the gain of
each phase and the scaled output (40_envelope_state_machine.md R103, 41_phase_accumulator_lut_interp.md R135 to R137,
42_linear_gain_scaler.md R162 to R166). -/

open Sys2Proof Sys2Proof.Machine Sys2Proof.Claims

namespace Sys2Proof.Machine

/-! ## The stored increment (40_envelope_state_machine.md R103, R104) -/

theorem phaseIncrementFor_of_le_one {d : Word32} (h : d.toNat ≤ 1) : phaseIncrementFor d = 0#32 := by
  obtain rfl | rfl : d = 0#32 ∨ d = 1#32 := by bv_omega
  · rfl
  · rfl

/-- From 2 up the quotient fits in 32 bits. -/
theorem phaseIncrementFor_toNat {d : Word32} (h : 2 ≤ d.toNat) : (phaseIncrementFor d).toNat = 2 ^ 32 / d.toNat := by
  have fits : 2 ^ 32 / d.toNat < 2 ^ 32 := Nat.div_lt_self (by decide) h
  have nonzero : d ≠ 0#32 := by bv_omega
  rw [phaseIncrementFor, if_neg nonzero, u32, BitVec.toNat_ofNat, Nat.mod_eq_of_lt fits]

/-! ## The sweep (41_phase_accumulator_lut_interp.md R137) -/

/-- Before the last sample of a phase the accumulator has not wrapped. -/
theorem sweep_lt {d : Word32} {k : Nat} (h : k < d.toNat) : k * (phaseIncrementFor d).toNat < 2 ^ 32 := by
  by_cases hd : d.toNat ≤ 1
  · simp [phaseIncrementFor_of_le_one hd]
  · rw [phaseIncrementFor_toNat (by omega)]
    have one_le : 0 < 2 ^ 32 / d.toNat := Nat.div_pos d.isLt.le (by omega)
    calc k * (2 ^ 32 / d.toNat)
        < d.toNat * (2 ^ 32 / d.toNat) := Nat.mul_lt_mul_of_pos_right h one_le
      _ ≤ 2 ^ 32 := Nat.mul_div_le _ _

theorem u32_toNat {n : Nat} (h : n < 2 ^ 32) : (u32 n).toNat = n := by
  rw [u32, BitVec.toNat_ofNat, Nat.mod_eq_of_lt h]

/-- Where the whole sweep ends, but for `d = 1`, whose increment is 0. -/
theorem sweep_end {d : Word32} (h : 2 ≤ d.toNat) :
    d.toNat * (phaseIncrementFor d).toNat = 2 ^ 32 - 2 ^ 32 % d.toNat := by
  have := Nat.div_add_mod (2 ^ 32) d.toNat
  rw [phaseIncrementFor_toNat h]
  omega

/-- The durations that divide the sweep evenly are the powers of two. -/
theorem mod_duration_eq_zero_iff (d : Word32) : 2 ^ 32 % d.toNat = 0 ↔ ∃ k : Nat, d.toNat = 2 ^ k := by
  rw [← Nat.dvd_iff_mod_eq_zero]
  constructor
  · intro h
    obtain ⟨k, -, hk⟩ := (Nat.dvd_prime_pow Nat.prime_two).1 h
    exact ⟨k, hk⟩
  · rintro ⟨k, hk⟩
    have hlt : 2 ^ k < 2 ^ 32 := hk ▸ d.isLt
    exact hk ▸ Nat.pow_dvd_pow 2 ((Nat.pow_lt_pow_iff_right (by decide)).1 hlt).le

/-! ## The blend (41_phase_accumulator_lut_interp.md R136) -/

theorem blend_rising (v e : Nat) {f : Nat} (hf : f ≤ 65536) : blend v (v + e) f = v + e * f / 65536 := by
  have expand : v * (65536 - f) + (v + e) * f = e * f + v * 65536 := by
    obtain ⟨g, hg⟩ := Nat.exists_eq_add_of_le hf
    rw [show 65536 - f = g by omega, hg]
    ring
  rw [blend, expand]
  omega

theorem blend_falling (v e : Nat) {f : Nat} (hf : f ≤ 65536) : blend (v + e) v f = v + e * (65536 - f) / 65536 := by
  have expand : (v + e) * (65536 - f) + v * f = e * (65536 - f) + v * 65536 := by
    obtain ⟨g, hg⟩ := Nat.exists_eq_add_of_le hf
    rw [show 65536 - f = g by omega, hg]
    ring
  rw [blend, expand]
  omega

/-- A fraction of a step is at most the step. -/
theorem mul_div_le_of_le (e : Nat) {f : Nat} (hf : f ≤ 65536) : e * f / 65536 ≤ e :=
  Nat.div_le_of_le_mul (by rw [Nat.mul_comm 65536]; exact Nat.mul_le_mul_left e hf)

theorem blend_between (v0 v1 : Nat) {f : Nat} (hf : f ≤ 65536) :
    min v0 v1 ≤ blend v0 v1 f ∧ blend v0 v1 f ≤ max v0 v1 := by
  obtain h | h := Nat.le_total v0 v1
  · obtain ⟨e, rfl⟩ := Nat.exists_eq_add_of_le h
    have := mul_div_le_of_le e hf
    rw [blend_rising v0 e hf]
    omega
  · obtain ⟨e, rfl⟩ := Nat.exists_eq_add_of_le h
    have := mul_div_le_of_le e (show 65536 - f ≤ 65536 by omega)
    rw [blend_falling v1 e hf]
    omega

theorem blend_lt_of_rising {v0 v1 f : Nat} (h : v0 < v1) (hf : f < 65536) : blend v0 v1 f < v1 := by
  obtain ⟨e, rfl⟩ := Nat.exists_eq_add_of_le h.le
  have : e * f / 65536 < e :=
    Nat.div_lt_of_lt_mul (by rw [Nat.mul_comm 65536]; exact Nat.mul_lt_mul_of_pos_left hf (by omega))
  rw [blend_rising v0 e hf.le]
  omega

theorem blend_zero_weight (v0 v1 : Nat) : blend v0 v1 0 = v0 := by simp [blend]

theorem curve_le (P : Params) (acc : Word32) : curve P acc ≤ 65536 :=
  (blend_between _ _ (blendWeight_lt acc).le).2.trans (max_le (tableLow_le P acc) (tableHigh_le P acc))

/-! ## The gain of a phase (42_linear_gain_scaler.md R162) -/

/-- The four coefficient pairs of R39 map the curve onto nothing, the rising range, full level and the falling
range. -/
theorem gain_pairs (c : Nat) :
    gain (s32 0) (s32 0) c = 0 ∧ gain (s32 65536) (s32 0) c = c ∧ gain (s32 0) (s32 65536) c = 65536 ∧
      gain (s32 (-65536)) (s32 65536) c = 65536 - c := by
  have value_zero : (s32 0).toInt = 0 := by decide
  have value_full : (s32 65536).toInt = 65536 := by decide
  have value_falling : (s32 (-65536)).toInt = -65536 := by decide
  simp only [gain, asr, value_zero, value_full, value_falling]
  omega

section
variable {s : State} (h : CoeffsMatchPhase s) (c : Nat)
include h

theorem gain_of_attack (hs : s.state = .attack) : gain s.gainMultiplier s.gainOffset c = c := by
  obtain ⟨hmul, hoff⟩ : s.gainMultiplier = s32 65536 ∧ s.gainOffset = s32 0 := by simpa [CoeffsMatchPhase, hs] using h
  exact hmul ▸ hoff ▸ (gain_pairs c).2.1

theorem gain_of_hold (hs : s.state = .hold) : gain s.gainMultiplier s.gainOffset c = 65536 := by
  obtain ⟨hmul, hoff⟩ : s.gainMultiplier = s32 0 ∧ s.gainOffset = s32 65536 := by simpa [CoeffsMatchPhase, hs] using h
  exact hmul ▸ hoff ▸ (gain_pairs c).2.2.1

theorem gain_of_falling (hs : s.state = .decay ∨ s.state = .forced) :
    gain s.gainMultiplier s.gainOffset c = 65536 - c := by
  obtain ⟨hmul, hoff⟩ : s.gainMultiplier = s32 (-65536) ∧ s.gainOffset = s32 65536 := by
    obtain hs | hs := hs <;> simpa [CoeffsMatchPhase, hs] using h
  exact hmul ▸ hoff ▸ (gain_pairs c).2.2.2

/-- In every phase, IDLE included, the gain of a curve value stays in 0 to 65536. -/
theorem gain_bounds (hc : c ≤ 65536) :
    0 ≤ gain s.gainMultiplier s.gainOffset c ∧ gain s.gainMultiplier s.gainOffset c ≤ 65536 := by
  cases hs : s.state with
  | idle =>
    obtain ⟨silent, rising, full, falling⟩ := gain_pairs c
    have pairs := h
    simp only [CoeffsMatchPhase, hs, List.mem_cons, List.not_mem_nil, or_false, Prod.mk.injEq] at pairs
    obtain ⟨hmul, hoff⟩ | ⟨hmul, hoff⟩ | ⟨hmul, hoff⟩ | ⟨hmul, hoff⟩ := pairs <;> rw [hmul, hoff] <;> omega
  | attack => rw [gain_of_attack h c hs]; omega
  | hold => rw [gain_of_hold h c hs]; omega
  | decay => rw [gain_of_falling h c (.inl hs)]; omega
  | forced => rw [gain_of_falling h c (.inr hs)]; omega

end

/-! ## Output scaling (42_linear_gain_scaler.md R163) -/

/-- Between silence and unity the scaled value lies between 0 and the input. -/
theorem scaled_between {g x : Int} (low : 0 ≤ g) (high : g ≤ 65536) :
    (0 ≤ x → 0 ≤ g * x / 65536 ∧ g * x / 65536 ≤ x) ∧ (x ≤ 0 → x ≤ g * x / 65536 ∧ g * x / 65536 ≤ 0) := by
  constructor
  · intro hx
    have : 0 ≤ g * x := mul_nonneg low hx
    have : g * x ≤ 65536 * x := mul_le_mul_of_nonneg_right high hx
    omega
  · intro hx
    have : g * x ≤ 0 := mul_nonpos_of_nonneg_of_nonpos low hx
    have : 65536 * x ≤ g * x := mul_le_mul_of_nonpos_right high hx
    omega

/-- The output is the floor itself: it fits in 16 bits. -/
theorem scale_toInt {g : Int} (low : 0 ≤ g) (high : g ≤ 65536) (x : Sample) :
    (scale g x).toInt = g * x.toInt / 65536 := by
  have x_low := BitVec.le_toInt x
  have x_high := BitVec.toInt_lt (x := x)
  obtain ⟨positive, negative⟩ := scaled_between (x := x.toInt) low high
  have fits : -2 ^ 15 ≤ g * x.toInt / 65536 ∧ g * x.toInt / 65536 < 2 ^ 15 := by
    obtain hx | hx := le_total 0 x.toInt
    · have := positive hx
      omega
    · have := negative hx
      omega
  exact BitVec.toInt_ofInt_eq_self (by decide) fits.1 fits.2

/-- No output is larger than its input or of the other sign. -/
theorem scale_within_input {g : Int} (low : 0 ≤ g) (high : g ≤ 65536) (x : Sample) :
    |(scale g x).toInt| ≤ |x.toInt| ∧ 0 ≤ (scale g x).toInt * x.toInt := by
  rw [scale_toInt low high]
  obtain ⟨positive, negative⟩ := scaled_between (x := x.toInt) low high
  obtain hx | hx := le_total 0 x.toInt
  · obtain ⟨y_low, y_high⟩ := positive hx
    exact ⟨abs_le_abs_of_nonneg y_low y_high, mul_nonneg y_low hx⟩
  · obtain ⟨y_low, y_high⟩ := negative hx
    exact ⟨abs_le_abs_of_nonpos y_high y_low, mul_nonneg_of_nonpos_of_nonpos y_high hx⟩

theorem scale_full (x : Sample) : scale 65536 x = x :=
  BitVec.eq_of_toInt_eq (by rw [scale_toInt (by decide) (by decide)]; omega)

theorem scale_zero (x : Sample) : scale 0 x = 0#16 := by
  simp [scale, asr, s16]

/-- At the start of a phase the curve is the first table entry. -/
theorem curve_start (P : Params) : curve P 0#32 = (P.table 0).val := blend_zero_weight ..

/-! ## The obligations -/

/-- Settles O26: the division is exact up to its remainder, which is below the divisor. -/
theorem incrementIsTheFlooredQuotient : Obligations.IncrementIsTheFlooredQuotient := by
  refine fun d => ⟨phaseIncrementFor_of_le_one, fun h => ?floor, fun h => ?long⟩
  case floor =>
    rw [phaseIncrementFor_toNat h]
    exact ⟨Nat.div_mul_le_self _ _, Nat.lt_mul_of_div_lt (Nat.lt_succ_self _) (by omega),
      Nat.div_pos d.isLt.le (by omega)⟩
  case long =>
    rw [phaseIncrementFor_toNat (by omega), Nat.div_lt_iff_lt_mul (by omega)]
    omega

/-- Settles O27: the accumulator values of a phase stay below `2^32`, so that the index is monotone in the count; the
whole sweep falls short of `2^32` by the remainder of the division. -/
theorem sweepDoesNotWrapWithinAPhase : Obligations.SweepDoesNotWrapWithinAPhase := by
  refine fun d hd => ⟨fun k => sweep_lt, fun j k hjk hk => ?monotone, fun hpow => ?even, fun hodd => ?uneven⟩
  case monotone =>
    rw [tableIndex_val, tableIndex_val, u32_toNat (sweep_lt (hjk.trans_lt hk)), u32_toNat (sweep_lt hk)]
    exact Nat.div_le_div_right (Nat.mul_le_mul_right _ hjk)
  case even =>
    by_cases hone : d.toNat ≤ 1
    · simp [phaseIncrementFor_of_le_one hone, u32]
    · rw [sweep_end (by omega), (mod_duration_eq_zero_iff d).2 hpow]
      rfl
  case uneven =>
    have not_one : d.toNat ≠ 1 := fun h => hodd ⟨0, h⟩
    have remainder : 2 ^ 32 % d.toNat ≠ 0 := fun h => hodd ((mod_duration_eq_zero_iff d).1 h)
    rw [sweep_end (by omega), u32_toNat (by omega)]

/-- Settles O38: the blend moves from the lower entry by a fraction of the difference. -/
theorem curveStaysBetweenItsNeighbours : Obligations.CurveStaysBetweenItsNeighbours := by
  intro P acc
  obtain ⟨above, below⟩ := blend_between (tableLow P acc) (tableHigh P acc) (blendWeight_lt acc).le
  refine ⟨above, below, curve_le P acc, fun hzero => ?_, fun hrise => blend_lt_of_rising hrise (blendWeight_lt acc)⟩
  rw [curve, hzero, blend_zero_weight]

/-- Refutes O39: on the falling segment from 1 to 0 the blend at weight 1 is already 0. -/
theorem not_blendReachesTheNextEntryOnlyWhenFlat : ¬ Obligations.BlendReachesTheNextEntryOnlyWhenFlat := by
  intro h
  exact absurd (h 1 0 1 (by decide) (by decide) (by decide) (by decide)) (by decide)

/-- Settles O40: each phase has one coefficient pair, whose gain is the curve, full level or the curve's complement. -/
theorem gainIsTheCurveMappedOntoThePhase : Obligations.GainIsTheCurveMappedOntoThePhase :=
  fun P _ h => ⟨gain_of_attack h _, gain_of_hold h _, gain_of_falling h _, gain_bounds h _ (curve_le P _)⟩

/-- Settles O41: the floor fits in 16 bits, because it lies between 0 and the input. -/
theorem scalingIsTheExactFloor : Obligations.ScalingIsTheExactFloor := by
  intro g x low high
  rw [scale_toInt low high]
  exact ⟨by omega, by omega, fun h => h ▸ scale_full x, fun h => h ▸ scale_zero x⟩

/-- Settles O43: the curve starts at 0, where ATTACK has silence and the other phases unity. -/
theorem firstSampleOfAPhase : Obligations.FirstSampleOfAPhase := by
  intro P x s hends hcoeffs hacc
  have start : curve P s.phaseAccumulator = 0 := by rw [hacc, curve_start, hends.1]
  refine ⟨fun hs => ?silent, fun hs => ?unity⟩
  case silent => rw [renderOutput, gain_of_attack hcoeffs _ hs, start, Nat.cast_zero, scale_zero]
  case unity =>
    have full : gain s.gainMultiplier s.gainOffset (curve P s.phaseAccumulator) = 65536 := by
      obtain hs | hs := hs
      · exact gain_of_hold hcoeffs _ hs
      · rw [gain_of_falling hcoeffs _ hs, start]; rfl
    rw [renderOutput, full, scale_full]

end Sys2Proof.Machine
end

section
/-! The transition loop followed to its end, and what a `SAMP` does where no transition is due
(40_envelope_state_machine.md R106 to R111, 41_phase_accumulator_lut_interp.md R132). -/

open Sys2Proof Sys2Proof.Machine Sys2Proof.Claims

namespace Sys2Proof.Machine

/-! ## Where the loop ends -/

theorem settle_of_settled {s : State} (h : Settled s) : settle s = s :=
  settleWithin_of_not_due _ s ((settled_iff_not_due s).1 h)

theorem settle_of_idle {s : State} (h : s.state = .idle) : settle s = s := settle_of_settled (.inl h)

/-- The `while` can end in one state only. -/
theorem eq_settle_of_loopLeaves {s u : State} (h : LoopLeaves s u) : u = settle s := by
  induction h with
  | done s h => exact (settle_of_settled h).symm
  | turn s u h _ ih =>
    have due : transitionDue s = true := by simpa [settled_iff_not_due] using h
    exact ih.trans (settle_transition due)

/-! ## With every phase of zero length -/

/-- No phase that the loop can enter has any samples, nor has the current one any left. -/
def NoSamples (s : State) : Prop :=
  s.remaining = 0#32 ∧ s.attackSamples = 0#32 ∧ s.holdSamples = 0#32 ∧ s.decaySamples = 0#32

/-- A transition leads to another such phase or, from a DECAY with no re-triggers left, to IDLE. -/
theorem NoSamples.transition {s : State} (h : NoSamples s) (hrun : s.state ≠ .idle) :
    NoSamples (transition s) ∧
      ((transition s).state ≠ .idle ∧
          ((transition s).retriggerCount = s.retriggerCount ∨
            0 < s.retriggerCount.toInt ∧ (transition s).retriggerCount = s32 (s.retriggerCount.toInt - 1)) ∨
        (transition s).state = .idle ∧ s.retriggerCount.toInt ≤ 0 ∧
          (transition s).retriggerCount = s32 (s.retriggerCount.toInt - 1)) := by
  obtain ⟨hrem, hattack, hhold, hdecay⟩ := h
  obtain ⟨hs, -⟩ | ⟨hs, hlen, -⟩ | ⟨hs, -, ht⟩ | ⟨hs, ht⟩ | ⟨hs, hpos, ht⟩ | ⟨hs, hneg, ht⟩ | ⟨hs, ht⟩ :=
    transition_cases s
  · exact absurd hs hrun
  · exact absurd hhold hlen
  all_goals simp [NoSamples, enterAttack, enterDecay, *]

/-- The count that the loop leaves: it runs down to 0 and is counted once more on the way to IDLE. -/
def countAfterFallThrough (c : Word32) : Word32 :=
  if 0 ≤ c.toInt then BitVec.ofInt 32 (-1) else BitVec.ofInt 32 (c.toInt - 1)

theorem countAfterFallThrough_pred {c : Word32} (h : 0 < c.toInt) :
    countAfterFallThrough (s32 (c.toInt - 1)) = countAfterFallThrough c := by
  have c_lt := BitVec.toInt_lt (x := c)
  have pred : (s32 (c.toInt - 1)).toInt = c.toInt - 1 := s32_toInt (by omega) (by omega)
  rw [countAfterFallThrough, countAfterFallThrough, pred, if_pos (by omega), if_pos h.le]

theorem NoSamples.loopLeaves {s u : State} (hloop : LoopLeaves s u) (h : NoSamples s) (hrun : s.state ≠ .idle) :
    u.state = .idle ∧ u.remaining = 0#32 ∧ u.retriggerCount = countAfterFallThrough s.retriggerCount := by
  induction hloop with
  | done s hsettled => exact absurd hsettled (by simp [Settled, hrun, h.1])
  | turn s u _ rest ih =>
    obtain ⟨hnext, ⟨hrun', hcount | ⟨hpos, hcount⟩⟩ | ⟨hidle, hneg, hcount⟩⟩ := h.transition hrun
    · exact hcount ▸ ih hnext hrun'
    · have := ih hnext hrun'
      rwa [hcount, countAfterFallThrough_pred hpos] at this
    · rw [eq_settle_of_loopLeaves rest, settle_of_idle hidle]
      refine ⟨hidle, hnext.1, hcount.trans ?_⟩
      unfold countAfterFallThrough
      split
      · rw [show s.retriggerCount.toInt = 0 by omega]; rfl
      · rfl

/-! ## `SAMP` where the loop has ended -/

theorem processSample_of_idle {s : State} (htail : s.tail = false) (hidle : s.state = .idle) (P : Params)
    (x : Sample) : processSample P x s = (0#16, startTail s) := by
  simp [processSample, htail, settle_of_idle hidle, hidle]

theorem processSample_of_running {s : State} (htail : s.tail = false) (hrun : s.state ≠ .idle)
    (hrem : s.remaining ≠ 0#32) (P : Params) (x : Sample) :
    processSample P x s = (renderOutput P x s, advance s) := by
  simp [processSample, htail, settle_of_settled (.inr hrem), hrun]

/-! ## The obligations -/

/-- Settles O30: the loop is a run of the `while`, whose only end it is; the fuel covers the turns that are left. -/
theorem transitionLoopIsTheWhileLoop : Obligations.TransitionLoopIsTheWhileLoop := by
  intro s
  have turns := turnsLeft_le_settleBound s
  exact ⟨settled_of_loopLeaves (loopLeaves_settle s), loopLeaves_settle s, fun _ => eq_settle_of_loopLeaves,
    fun n hn => settleWithin_eq_of_turnsLeft_le (turns.trans hn) turns⟩

/-- Settles O31: every turn meets another phase of zero length until a DECAY finds no re-triggers left. -/
theorem zeroLengthPhasesFallThroughToIdle : Obligations.ZeroLengthPhasesFallThroughToIdle :=
  fun s hrun hrem hattack hhold hdecay =>
    NoSamples.loopLeaves (loopLeaves_settle s) ⟨hrem, hattack, hhold, hdecay⟩ hrun

/-- Settles O29: the `SAMP` is that of the state after the transition, which restarts ATTACK or is IDLE, where a sample
is silent and opens the tail. -/
theorem sampLeavesAFinishedDecay : Obligations.SampLeavesAFinishedDecay := by
  intro x s hblock htail hrem hs
  have due : transitionDue s = true := (transitionDue_iff s).2 ⟨by simp [hs], hrem⟩
  rw [← exec_samp_transition x hblock htail due]
  refine ⟨fun hpos => ?restart, fun hneg => ?idle⟩
  case restart =>
    have restart : transition s = enterAttack (countRetrigger s) := by simp [transition, hs, hpos]
    rw [restart, enterAttack_eq_entered]
    rfl
  case idle =>
    have to_idle : transition s = enterIdle (countRetrigger s) := by simp [transition, hs, hneg.not_gt]
    rw [to_idle, exec_samp_of_block x (by simpa using hblock), processSample_of_idle (by simpa using htail) rfl]
    rfl

/-- Settles O33: with no transition due the loop leaves the state alone, and the sample is rendered from it. -/
theorem sampRendersOneSample : Obligations.SampRendersOneSample := by
  intro x s hblock htail hrun hrem
  rw [exec_samp_of_block x hblock, processSample_of_running htail hrun hrem, renderOutput_eq_outputAt,
    advance_eq_advanced hrem]

/-- Settles O56: HOLD is entered only with a length, and FORCED only where forced decay is enabled. -/
theorem entryToHoldOrForcedHasSamples : Obligations.EntryToHoldOrForcedHasSamples := by
  refine fun s => ⟨fun hnot hhold => ?hold, fun t hexec hnot hforced => ?forced⟩
  case hold =>
    obtain ⟨hs, ht⟩ | ⟨hs, hlen, ht⟩ | ⟨hs, -, ht⟩ | ⟨hs, ht⟩ | ⟨hs, hpos, ht⟩ | ⟨hs, hneg, ht⟩ | ⟨hs, ht⟩ :=
      transition_cases s
    case inr.inl => simpa [ht, enterHold] using hlen
    all_goals simp [ht, hs, enterDecay, enterAttack] at hhold
  case forced =>
    obtain rfl : respond .ack (trigger s) = t := by simpa [exec, execTrig] using hexec
    obtain ⟨-, ht⟩ | ⟨-, -, hlen, ht⟩ | ⟨hs, -, -⟩ := trigger_cases s
    · simp [ht, enterAttack] at hforced
    · simpa [ht, enterForced] using hlen
    · exact absurd hs hnot

end Sys2Proof.Machine
end

section
/-! The invariants of 10_state.md R39: a rule for predicates of the working registers, then the coefficients, the
framing, the error pair and the sweep, each kept by every step. -/

open Sys2Proof Sys2Proof.Machine Sys2Proof.Claims

namespace Sys2Proof.Machine

/-! ## Predicates kept by every step -/

/-- The loop keeps what each of its transitions keeps. -/
theorem settle_keeps {I : State → Prop} (transition : ∀ s, s.state ≠ .idle → I s → I (transition s)) {s : State}
    (h : I s) : I (settle s) := by
  have loop := loopLeaves_settle s
  generalize settle s = u at loop ⊢
  induction loop with
  | done => exact h
  | turn s u hdue _ ih => exact ih (transition s (fun hidle => hdue (.inl hidle)) h)

/-- A predicate is kept by every step when it ignores the ports, holds at reset, and is kept by every effect and by
the latching of an error. -/
theorem step_keeps {I : State → Prop} (stream : ∀ port answers s, I s → I (inStream port answers s))
    (effect : ∀ i s r u, Effect i s r u → I s → I u) (raise : ∀ c s, I s → I (recordError c s))
    (reset : I State.reset) {s t : State} (h : I s) (hstep : step s = .next t) : I t := by
  by_cases hport : s.port = []
  · obtain rfl : t = s := by simpa [waitsWhenNothingIsPresented s hport] using hstep.symm
    exact h
  · obtain ⟨i, rest, hport⟩ := List.exists_cons_of_ne_nil hport
    rw [step_of_port_cons hport] at hstep
    have taken : I { s with port := rest } := stream rest s.responses s h
    obtain ⟨-, j, r, u, -, -, heff, rfl⟩ | ⟨-, c, -, -, rfl⟩ | ⟨-, rfl⟩ := accept_cases hstep
    · exact stream _ _ u (effect j _ r u heff taken)
    · exact stream _ _ _ (raise c _ taken)
    · exact stream _ _ _ reset

/-- A predicate of the working registers is kept by every step when it holds at reset and is kept by the trigger, by
every transition and by the advance of a rendered sample. -/
theorem step_keeps_working {I : State → Prop} (congr : ∀ s t, SameWorking s t → I s → I t)
    (trigger : ∀ s, I s → I (trigger s)) (transition : ∀ s, s.state ≠ .idle → I s → I (transition s))
    (advance : ∀ s, s.remaining ≠ 0#32 → I s → I (advance s)) (reset : I State.reset) {s t : State} (h : I s)
    (hstep : step s = .next t) : I t := by
  refine step_keeps (fun _ _ s => congr s _ (by simp [SameWorking, inStream, beside]))
    (fun i s r u heff hs => ?effect) (fun _ s => congr s _ (by simp [SameWorking])) reset h hstep
  cases i with
  | trig => cases heff; exact trigger s hs
  | samp x =>
    cases heff with
    | sampRefused => exact congr s _ (by simp [SameWorking]) hs
    | samp =>
      refine congr _ _ (countSample_frame _ _).1 ?_
      have settled := settle_keeps transition hs
      obtain ⟨-, h⟩ | ⟨-, -, h⟩ | ⟨-, hrun, h⟩ := processSample_cases Config.params x s <;> rw [h]
      · exact hs
      · exact congr _ _ (by simp [SameWorking]) settled
      · exact advance _ (settle_remaining_ne_zero hrun) settled
  | nop | bstart | cfgw | cfgr => exact congr s u (heff.sameWorking (by simp)) hs

/-! ## The coefficients (item 2 of R39) -/

theorem coeffsMatchPhase_congr (s t : State) (hst : SameWorking s t) (h : CoeffsMatchPhase s) :
    CoeffsMatchPhase t := by
  obtain ⟨hs, -, -, -, -, hmul, hoff⟩ := hst
  unfold CoeffsMatchPhase at h ⊢
  rwa [← hs, ← hmul, ← hoff]

/-- Each phase is entered with its own pair, and IDLE keeps that of DECAY. -/
theorem coeffsMatchPhase_transition (s : State) (hrun : s.state ≠ .idle) (h : CoeffsMatchPhase s) :
    CoeffsMatchPhase (transition s) := by
  obtain ⟨hs, -⟩ | ⟨-, -, ht⟩ | ⟨-, -, ht⟩ | ⟨-, ht⟩ | ⟨-, -, ht⟩ | ⟨hs, -, ht⟩ | ⟨-, ht⟩ := transition_cases s
  case inr.inr.inr.inr.inr.inl =>
    have pair : (s.gainMultiplier, s.gainOffset) = (s32 (-65536), s32 65536) := by
      simpa [CoeffsMatchPhase, hs] using h
    simp [ht, CoeffsMatchPhase, pair]
  · exact absurd hs hrun
  all_goals rw [ht]; rfl

theorem coeffsMatchPhase_trigger (s : State) (h : CoeffsMatchPhase s) : CoeffsMatchPhase (trigger s) := by
  obtain ⟨-, ht⟩ | ⟨-, -, -, ht⟩ | ⟨-, -, ht⟩ := trigger_cases s <;> rw [ht]
  · rfl
  · rfl
  · exact h

theorem coeffsMatchPhase_reset : CoeffsMatchPhase State.reset := List.mem_cons_self

theorem step_coeffsMatchPhase {s t : State} (h : CoeffsMatchPhase s) (hstep : step s = .next t) :
    CoeffsMatchPhase t :=
  step_keeps_working coeffsMatchPhase_congr coeffsMatchPhase_trigger coeffsMatchPhase_transition
    (fun _ _ h => h) coeffsMatchPhase_reset h hstep

/-! ## The framing (items 3 to 5 of R39) -/

theorem trigger_running (s : State) : (trigger s).state ≠ .idle := by
  obtain ⟨-, ht⟩ | ⟨-, -, -, ht⟩ | ⟨hs, -, ht⟩ := trigger_cases s
  · simp [ht, enterAttack]
  · simp [ht, enterForced]
  · simp [ht, hs]

/-- After a sample the envelope is running unless the block is in its tail. -/
theorem processSample_running (P : Params) (x : Sample) {s : State} (h : (processSample P x s).2.tail = false) :
    (processSample P x s).2.state ≠ .idle := by
  obtain ⟨htail, hs⟩ | ⟨-, -, hs⟩ | ⟨-, hrun, hs⟩ := processSample_cases P x s <;> rw [hs] at h ⊢
  · simp [htail] at h
  · simp at h
  · exact hrun

theorem framingOk_reset (P : Params) : FramingOk P State.reset :=
  ⟨fun h => absurd h.1 (by decide), fun h => absurd h (by decide), P.blockLen_pos, fun _ => rfl⟩

theorem framingOk_openBlock (P : Params) (s : State) : FramingOk P (openBlock s) :=
  ⟨fun h => by simpa [blockActive] using h.1, fun h => absurd h (by simp), P.blockLen_pos, fun _ => rfl⟩

/-- Counting a sample in an open block closes it or leaves the position below `BLOCK_LEN`. -/
theorem framingOk_countSample {P : Params} {s : State} (hblock : s.inBlock = true)
    (hpos : s.blockPos.toNat < P.blockLen) (hrun : s.tail = false → s.state ≠ .idle) : FramingOk P (countSample P s) := by
  obtain ⟨-, h⟩ | ⟨hlast, h⟩ := countSample_cases P s <;> rw [h]
  · exact ⟨fun h => absurd h.1 (by simp), fun h => absurd h (by simp), P.blockLen_pos, fun _ => rfl⟩
  · have not_last : s.blockPos.toNat ≠ P.blockLen - 1 := by simpa [isLastSample] using hlast
    have len_le := P.blockLen_le
    have next_pos : (s.blockPos + 1#16).toNat = s.blockPos.toNat + 1 := by bv_omega
    exact ⟨fun h => hrun h.2, fun _ => hblock, by simp only [next_pos]; omega, fun h => absurd h (by simp [hblock])⟩

theorem effect_framingOk (i : Instr) (s : State) (r : Response) (u : State) (heff : Effect i s r u)
    (h : FramingOk Config.params s) : FramingOk Config.params u := by
  cases heff with
  | nop | cfgr => exact h
  | bstartRefused | sampRefused | cfgwReserved | cfgwReadOnly | cfgrReserved => exact h
  | bstart => exact framingOk_openBlock _ s
  | trig =>
    obtain ⟨-, ⟨hblock, htail, hpos⟩, -⟩ := trigger_frame s
    obtain ⟨-, framing⟩ := h
    rw [hblock, htail, hpos] at framing
    exact ⟨fun _ => trigger_running s, framing⟩
  | samp x hblock =>
    obtain ⟨-, -, hpos, -⟩ := h
    obtain ⟨-, block_kept, pos_kept, -⟩ := processSample_frame Config.params x s
    exact framingOk_countSample (block_kept.trans hblock) (pos_kept ▸ hpos) (processSample_running _ x)
  | @cfgw _ r v => cases r <;> exact h

theorem step_framingOk {s t : State} (h : FramingOk Config.params s) (hstep : step s = .next t) :
    FramingOk Config.params t :=
  step_keeps (fun _ _ _ h => h) effect_framingOk (fun _ _ h => h) (framingOk_reset _) h hstep

/-! ## The error pair (item 6 of R39) -/

theorem code_bounds (c : IllegalCause) : 1 ≤ c.code.toNat ∧ c.code.toNat ≤ 6 := by cases c <;> decide

theorem errorPairOk_recordError (c : IllegalCause) (s : State) (h : ErrorPairOk s) :
    ErrorPairOk (recordError c s) := by
  refine ⟨fun herr => absurd herr (by simp), fun _ => ?_⟩
  cases herr : s.err with
  | false => simpa [herr] using code_bounds c
  | true => simpa [herr] using h.2 herr

theorem KeepsErrorsOrRaises.errorPairOk {s t : State} (h : KeepsErrorsOrRaises s t) (hs : ErrorPairOk s) :
    ErrorPairOk t := by
  obtain ⟨herr, hcode⟩ | ⟨c, rfl⟩ := h
  · unfold ErrorPairOk at hs ⊢
    rwa [← herr, ← hcode]
  · exact errorPairOk_recordError c s hs

theorem errorPairOk_of_clear {s : State} (herr : s.err = false) (hcode : s.errcode = 0#3) : ErrorPairOk s :=
  ⟨fun _ => hcode, fun h => absurd h (by simp [herr])⟩

theorem step_errorPairOk {s t : State} (h : ErrorPairOk s) (hstep : step s = .next t) : ErrorPairOk t := by
  cases hreset : resetIsNext s with
  | false =>
    obtain ⟨_, t', hstep', ht⟩ := step_keepsErrorsOrRaises hreset
    obtain rfl : t = t' := by simpa [hstep] using hstep'
    exact ht.errorPairOk h
  | true =>
    obtain ⟨herr, hcode⟩ := (errorsAreSticky s t hstep).2 hreset
    exact errorPairOk_of_clear herr hcode

/-! ## The sweep (item 8 of R39) -/

theorem sweepOk_congr (s t : State) (hst : SameWorking s t) (h : SweepOk s) : SweepOk t := by
  obtain ⟨hs, hrem, hacc, hinc, -⟩ := hst
  unfold SweepOk at h ⊢
  rwa [← hs, ← hrem, ← hacc, ← hinc]

/-- A phase entry starts the sweep of its duration. -/
theorem sweepOk_enterPhase (p : Phase) (d : Word32) (a b : Level) (s : State) : SweepOk (enterPhase p d a b s) :=
  .inr ⟨d, 0, Nat.zero_le _, rfl, rfl, by simp [u32]⟩

theorem sweepOk_transition (s : State) (hrun : s.state ≠ .idle) (_ : SweepOk s) : SweepOk (transition s) := by
  obtain ⟨hs, -⟩ | ⟨-, -, ht⟩ | ⟨-, -, ht⟩ | ⟨-, ht⟩ | ⟨-, -, ht⟩ | ⟨-, -, ht⟩ | ⟨-, ht⟩ := transition_cases s
  case inr.inr.inr.inr.inr.inl => exact .inl (by simp [ht])
  · exact absurd hs hrun
  all_goals exact ht ▸ sweepOk_enterPhase ..

theorem sweepOk_trigger (s : State) (h : SweepOk s) : SweepOk (trigger s) := by
  obtain ⟨-, ht⟩ | ⟨-, -, -, ht⟩ | ⟨-, -, ht⟩ := trigger_cases s <;> rw [ht]
  · exact sweepOk_enterPhase .attack s.attackSamples .silence .full { s with retriggerCount := s.maxRetriggers }
  · exact sweepOk_enterPhase ..
  · exact h

/-- One more rendered sample: the count goes up by one, and the accumulator by one increment. -/
theorem sweepOk_advance (s : State) (hrem : s.remaining ≠ 0#32) (h : SweepOk s) : SweepOk (advance s) := by
  obtain hidle | ⟨d, k, hk, hleft, hinc, hacc⟩ := h
  · exact .inl hidle
  · refine .inr ⟨d, k + 1, ?_, ?_, hinc, ?_⟩
    · bv_omega
    · rw [advance_remaining]
      bv_omega
    · rw [advance_phaseAccumulator, hacc, hinc, u32, u32, Nat.add_mul, Nat.one_mul, BitVec.ofNat_add,
        BitVec.ofNat_toNat, BitVec.setWidth_eq]

theorem sweepOk_reset : SweepOk State.reset := .inl rfl

/-! ## The obligations -/

/-- Settles O52: the coefficients by the rule for working registers, the framing by the effects, the error pair by what
a step can do to it. -/
theorem everyStepKeepsTheInvariants : Obligations.EveryStepKeepsTheInvariants :=
  fun _ _ h hstep => ⟨step_coeffsMatchPhase h.coeffs hstep, step_framingOk h.framing hstep,
    step_errorPairOk h.errors hstep⟩

/-- Settles O53: a phase entry starts a sweep, a rendered sample takes it one further, and nothing else touches it. -/
theorem everyStepKeepsTheSweep : Obligations.EveryStepKeepsTheSweep :=
  fun _ _ => step_keeps_working sweepOk_congr sweepOk_trigger sweepOk_transition sweepOk_advance sweepOk_reset

/-- Settles O54: the reset record is in IDLE, outside a block and without an error. -/
theorem invariantsHoldAtReset : Obligations.InvariantsHoldAtReset :=
  fun _ => ⟨⟨coeffsMatchPhase_reset, framingOk_reset _, errorPairOk_of_clear rfl rfl⟩, sweepOk_reset⟩

/-- Settles O55: by induction on the run, from O54 by O52 and O53. -/
theorem reachableStatesMeetTheInvariants : Obligations.ReachableStatesMeetTheInvariants := by
  intro s h
  induction h with
  | start inputs => exact invariantsHoldAtReset inputs
  | step s t _ hstep ih =>
    exact ⟨everyStepKeepsTheInvariants s t ih.1 hstep, everyStepKeepsTheSweep s t ih.2 hstep⟩

/-- Settles O42: a sample is silent or scaled by a gain of the phase that the loop leaves, whose coefficients match. -/
theorem outputNeverExceedsTheInput : Obligations.OutputNeverExceedsTheInput := by
  intro x s hinv hblock
  have heff := Effect.samp x hblock
  refine ⟨_, _, _, exec_of_effect heff, by rw [respond_responses, heff.ports.2], ?_⟩
  have settled : CoeffsMatchPhase (settle s) := settle_keeps coeffsMatchPhase_transition hinv.coeffs
  obtain ⟨low, high⟩ := gain_bounds settled _ (curve_le Config.params (settle s).phaseAccumulator)
  obtain ⟨-, h⟩ | ⟨-, -, h⟩ | ⟨-, -, h⟩ := processSample_cases Config.params x s <;> rw [h]
  · simp
  · simp
  · exact scale_within_input low high x

end Sys2Proof.Machine
end

section
/-! Rules about the envelope in IDLE, about tails, and about reading a written register, from the effects
(10_state.md R38, 40_envelope_state_machine.md R110, 41_phase_accumulator_lut_interp.md R140,
43_config_and_system.md). -/

open Sys2Proof Sys2Proof.Machine Sys2Proof.Claims

namespace Sys2Proof.Machine

/-! ## IDLE (10_state.md R38, 40_envelope_state_machine.md R110) -/

/-- A sample in IDLE is silent and leaves the working registers. -/
theorem processSample_idle {s : State} (h : s.state = .idle) (P : Params) (x : Sample) :
    (processSample P x s).1 = 0#16 ∧ SameWorking s (processSample P x s).2 := by
  cases htail : s.tail with
  | true => simp [processSample_of_tail htail, SameWorking]
  | false => simp [processSample_of_idle htail h, SameWorking]

theorem Effect.sameWorking_of_idle {i : Instr} {s u : State} {r : Response} (h : Effect i s r u)
    (hidle : s.state = .idle) (hi : i ≠ .trig) : SameWorking s u := by
  cases i with
  | trig => exact absurd rfl hi
  | samp x =>
    cases h with
    | sampRefused => simp [SameWorking]
    | samp =>
      obtain ⟨-, rendered⟩ := processSample_idle hidle Config.params x
      obtain ⟨counted, -⟩ := countSample_frame Config.params (processSample Config.params x s).2
      simp_all [SameWorking]
  | nop | bstart | cfgw | cfgr => exact h.sameWorking (by simp)

theorem smp_zero_word (last : Bool) :
    (Response.smp 0#16 last).word = if last then 0x200010000#36 else 0x200000000#36 := by
  cases last <;> rfl

/-- IDLE is entered by a `SAMP` only where a phase of an open block has run out. -/
theorem processSample_to_idle {P : Params} {x : Sample} {s : State} (hrun : s.state ≠ .idle)
    (h : (processSample P x s).2.state = .idle) : s.remaining = 0#32 := by
  by_contra hrem
  cases htail : s.tail with
  | true => exact hrun (by simpa [processSample_of_tail htail] using h)
  | false => exact hrun (by simpa [processSample_of_running htail hrun hrem] using h)

theorem Effect.to_idle {i : Instr} {s u : State} {r : Response} (h : Effect i s r u) (hrun : s.state ≠ .idle)
    (hidle : u.state = .idle) : s.remaining = 0#32 ∧ s.inBlock = true ∧ ∃ x, i = .samp x := by
  cases i with
  | trig => cases h; exact absurd hidle (trigger_running s)
  | samp x =>
    cases h with
    | sampRefused => exact absurd hidle hrun
    | samp x hblock =>
      obtain ⟨⟨counted, -⟩, -⟩ := countSample_frame Config.params (processSample Config.params x s).2
      exact ⟨processSample_to_idle hrun (counted.trans hidle), hblock, x, rfl⟩
  | nop | bstart | cfgw | cfgr =>
    obtain ⟨same, -⟩ := h.sameWorking (by simp)
    exact absurd (same.trans hidle) hrun

/-! ## Tails (41_phase_accumulator_lut_interp.md R140) -/

/-- In a tail only the last `SAMP` of the block touches the framing that a tail stands in. -/
theorem Effect.tail_kept {i : Instr} {s u : State} {r : Response} (h : Effect i s r u) (hblock : s.inBlock = true)
    (htail : s.tail = true) :
    u.inBlock = true ∧ u.tail = true ∨
      (∃ x, i = .samp x) ∧ s.blockPos.toNat = Config.params.blockLen - 1 ∧ u.inBlock = false ∧ u.tail = false := by
  cases i with
  | bstart =>
    cases h with
    | bstart hclosed => simp [hblock] at hclosed
    | bstartRefused => exact .inl ⟨hblock, htail⟩
  | samp x =>
    cases h with
    | sampRefused => exact .inl ⟨hblock, htail⟩
    | samp =>
      rw [processSample_of_tail htail]
      obtain ⟨hlast, h⟩ | ⟨-, h⟩ := countSample_cases Config.params s <;> rw [h]
      · exact .inr ⟨⟨x, rfl⟩, (isLastSample_iff _ s).1 hlast, rfl, rfl⟩
      · exact .inl ⟨hblock, htail⟩
  | nop | trig | cfgw | cfgr =>
    obtain ⟨block_kept, tail_kept, -⟩ := h.sameFraming (by simp)
    exact .inl ⟨block_kept ▸ hblock, tail_kept ▸ htail⟩

/-! ## Register reads after a register write (20_memory.md R52) -/

theorem regRead_regWrite_same {r : Reg} (h : r.readOnly = false) (v : Word32) (s : State) :
    regRead r (regWrite r v s) = v := by
  obtain ⟨rfl, -⟩ | ⟨rfl, -⟩ | ⟨rfl, -⟩ | ⟨rfl, -⟩ | ⟨rfl, -⟩ | ⟨hro, -⟩ := regWrite_cases r v s
  case inr.inr.inr.inr.inr => simp [h] at hro
  all_goals rfl

theorem regRead_regWrite_ne {r r' : Reg} (h : r' ≠ r) (v : Word32) (s : State) :
    regRead r' (regWrite r v s) = regRead r' s := by
  obtain ⟨rfl, hw⟩ | ⟨rfl, hw⟩ | ⟨rfl, hw⟩ | ⟨rfl, hw⟩ | ⟨rfl, hw⟩ | ⟨-, hw⟩ := regWrite_cases r v s <;>
    rw [hw] <;> cases r' <;> simp_all [regRead, statusWord]

/-- The map after an accepted `CFGW`, at every address (10_state.md R37). -/
theorem mapRead_regWrite {r : Reg} (h : r.readOnly = false) (v : Word32) (s : State) (b : RegAddr) :
    mapRead b.toNat (regWrite r v s) = if b = r.addr then some v.toNat else mapRead b.toNat s := by
  cases hb : Reg.ofAddr b with
  | none =>
    have not_here : b ≠ r.addr := by
      rintro rfl
      simp [Reg.ofAddr_addr] at hb
    rw [if_neg not_here, mapRead_of_reserved hb, mapRead_of_reserved hb]
  | some r' =>
    obtain rfl := Reg.addr_of_ofAddr b r' hb
    rw [mapRead_addr, mapRead_addr]
    by_cases hr : r' = r
    · subst hr
      rw [if_pos rfl, regRead_regWrite_same h]
    · have not_here : r'.addr ≠ r.addr := fun h => hr (by simpa [h, Reg.ofAddr_addr] using hb.symm)
      rw [if_neg not_here, regRead_regWrite_ne hr]

/-! ## The obligations -/

/-- Settles O50: in IDLE only the trigger changes the phase, and it enters ATTACK; IDLE is entered from a phase that
has run out. -/
theorem idleIsLeftOnlyByTrig : Obligations.IdleIsLeftOnlyByTrig := by
  intro s t hstep
  by_cases hport : s.port = []
  · obtain rfl : t = s := by simpa [waitsWhenNothingIsPresented s hport] using hstep.symm
    exact ⟨fun hidle hrun => absurd hidle hrun, fun hrun hidle => absurd hidle hrun⟩
  obtain ⟨i, rest, hport⟩ := List.exists_cons_of_ne_nil hport
  rw [step_of_port_cons hport] at hstep
  obtain ⟨w, j, r, u, rfl, hdec, heff, rfl⟩ | ⟨w, c, rfl, -, rfl⟩ | ⟨hreset, rfl⟩ := accept_cases hstep
  case inr.inl => exact ⟨fun hidle hrun => absurd hidle hrun, fun hrun hidle => absurd hidle hrun⟩
  case inr.inr =>
    refine ⟨fun _ hrun => absurd rfl hrun, fun _ _ => .inl ((resetIsNext_iff s).2 ⟨rest, ?_⟩)⟩
    obtain rfl | ⟨w, rfl⟩ := hreset
    · exact .inl hport
    · exact .inr ⟨w, hport⟩
  case inl =>
    refine ⟨fun hidle hrun => ?left, fun hrun hidle => ?entered⟩
    case left =>
      by_cases hj : j = .trig
      · subst hj
        obtain ⟨-, rfl⟩ := wellFormed_and_encode_of_decode hdec
        cases heff
        exact ⟨by simp [trigger, hidle, enterAttack], rest, hport⟩
      · obtain ⟨same, -⟩ := heff.sameWorking_of_idle hidle hj
        exact absurd (same.symm.trans hidle) hrun
    case entered =>
      obtain ⟨hrem, hblock, x, rfl⟩ := heff.to_idle hrun hidle
      exact .inr ⟨hrem, hblock, w, x, rest, hport, hdec⟩

/-- Settles O51: a sample in IDLE is silent, and no other effect but the trigger writes a working register. -/
theorem idleIsSilentAndStill : Obligations.IdleIsSilentAndStill := by
  intro i s t hidle hi hexec
  obtain ⟨r, u, heff, rfl⟩ := (exec_eq_next_iff i s t).1 hexec
  refine ⟨heff.sameWorking_of_idle hidle hi, ?_⟩
  rintro x rfl
  rw [respond_responses, heff.ports.2]
  cases heff with
  | sampRefused => exact .inr (.inr rfl)
  | samp =>
    rw [(processSample_idle hidle _ x).1, smp_zero_word]
    cases isLastSample Config.params s
    · exact .inl rfl
    · exact .inr (.inl rfl)

/-- Settles O35: in a tail a sample only counts, and every other command leaves the framing. -/
theorem tailLastsToTheEndOfTheBlock : Obligations.TailLastsToTheEndOfTheBlock := by
  intro i s t hblock htail hexec
  obtain ⟨r, u, heff, rfl⟩ := (exec_eq_next_iff i s t).1 hexec
  refine ⟨?_, heff.tail_kept hblock htail⟩
  rintro x rfl
  rw [respond_responses, heff.ports.2]
  cases heff with
  | sampRefused _ hclosed => simp [hblock] at hclosed
  | samp =>
    rw [processSample_of_tail htail]
    obtain ⟨working, config, -⟩ := countSample_frame Config.params s
    exact ⟨working, config, by simp [smp_zero_word, isLastSample]⟩

/-- Settles O48: the map is read register by register, and a write changes the one at its address. -/
theorem writtenRegisterReadsBack : Obligations.WrittenRegisterReadsBack := by
  intro a b v s t ha hexec
  obtain ⟨r, hr, hwritable⟩ := (Reg.writable_iff a).2 ha
  obtain rfl := Reg.addr_of_ofAddr a r hr
  obtain rfl : answered 0 (regWrite r v s) = t := by simpa [exec_cfgw_addr_of_writable hwritable] using hexec
  exact mapRead_regWrite hwritable v s b

/-- Settles O21: the reset record is in IDLE, outside a block, and every register of the map reads 0. -/
theorem commandsStraightAfterReset : Obligations.CommandsStraightAfterReset := by
  refine ⟨(bstartOpensOrSkips _).2.1 rfl rfl, fun x => exec_samp_of_no_block x rfl, fun a ha => ?cfgr, ?trig⟩
  case cfgr =>
    have hwf : (Instr.cfgr a).WellFormed := by simpa [Instr.WellFormed, Instr.wellFormed] using ha
    obtain ⟨r, hr⟩ := (cfgr_wellFormed_iff a).1 hwf
    obtain rfl := Reg.addr_of_ofAddr a r hr
    have reads_zero : (regRead r State.reset).toNat = 0 := by cases r <;> rfl
    rw [exec_cfgr_addr, reads_zero]
  case trig => rfl

end Sys2Proof.Machine
end

section
/-! Runs of samples: a list of `SAMP`s inside one phase and block, and the host's `update` over one whole block
(41_phase_accumulator_lut_interp.md R130, R132, R137, R139). -/

open Sys2Proof Sys2Proof.Machine Sys2Proof.Claims

namespace Sys2Proof.Machine

/-! ## The accumulator and the position as numbers -/

/-- Reducing before an addition or after it is the same. -/
theorem u32_toNat_add (a b : Nat) : u32 ((u32 a).toNat + b) = u32 (a + b) := by
  simp [u32, ← BitVec.toNat_inj]

theorem blockPos_succ_toNat {P : Params} {s : State} (h : s.blockPos.toNat + 1 < P.blockLen) :
    (s.blockPos + 1#16).toNat = s.blockPos.toNat + 1 := by
  have len_le := P.blockLen_le
  bv_omega

/-! ## One sample of a running phase -/

/-- What a `SAMP` with no transition due leaves (41_phase_accumulator_lut_interp.md R132). -/
def sampled (x : Sample) (s : State) : State :=
  respond (.smp (outputAt s x) (isLastSample Config.params s)) (countSample Config.params (advance s))

theorem exec_samp_of_running (x : Sample) {s : State} (hblock : s.inBlock = true) (htail : s.tail = false)
    (hrun : s.state ≠ .idle) (hrem : s.remaining ≠ 0#32) : exec (.samp x) s = .next (sampled x s) := by
  have heff := Effect.samp x hblock
  rw [processSample_of_running htail hrun hrem, renderOutput_eq_outputAt] at heff
  exact exec_of_effect heff

theorem sampled_port (x : Sample) (s : State) : (sampled x s).port = s.port := by
  obtain ⟨-, -, port_kept, -⟩ := countSample_frame Config.params (advance s)
  exact port_kept

theorem sampled_of_last {x : Sample} {s : State} (h : s.blockPos.toNat + 1 = Config.params.blockLen) :
    sampled x s =
      { advance s with
        inBlock := false
        tail := false
        blockPos := 0#16
        responses := s.responses ++ [(Response.smp (outputAt s x) true).word] } := by
  have last : isLastSample Config.params s = true := (isLastSample_iff _ s).2 (by omega)
  have last' : isLastSample Config.params (advance s) = true := last
  simp [sampled, countSample, last, last', respond]

theorem sampled_of_not_last {x : Sample} {s : State} (h : s.blockPos.toNat + 1 < Config.params.blockLen) :
    sampled x s =
      { advance s with
        blockPos := s.blockPos + 1#16
        responses := s.responses ++ [(Response.smp (outputAt s x) false).word] } := by
  have not_last : isLastSample Config.params s = false := by
    rw [← Bool.not_eq_true, isLastSample_iff]
    omega
  have not_last' : isLastSample Config.params (advance s) = false := not_last
  simp [sampled, countSample, not_last, not_last', respond]

/-! ## A run of samples -/

/-- The accumulator after `k` more samples of a phase (41_phase_accumulator_lut_interp.md R137). -/
def accAfter (k : Nat) (s : State) : Word32 := u32 (s.phaseAccumulator.toNat + k * s.phaseIncrement.toNat)

/-- What the `SAMP` after `k` more samples answers. -/
def answerAfter (k : Nat) (x : Sample) (s : State) : ResponseWord :=
  (Response.smp (outputAt { s with phaseAccumulator := accAfter k s } x)
    (decide (s.blockPos.toNat + k + 1 = Config.params.blockLen))).word

/-- The state after a run of samples that stays inside a phase and a block. -/
def afterSamples (xs : List Sample) (rest : List Input) (s : State) : State :=
  { s with
    port := rest
    remaining := BitVec.ofNat 32 (s.remaining.toNat - xs.length)
    phaseAccumulator := accAfter xs.length s
    inBlock := decide (s.blockPos.toNat + xs.length < Config.params.blockLen)
    blockPos :=
      if s.blockPos.toNat + xs.length < Config.params.blockLen
      then BitVec.ofNat 16 (s.blockPos.toNat + xs.length) else 0#16
    responses := s.responses ++ xs.mapIdx fun k x => answerAfter k x s }

theorem accAfter_zero (s : State) : accAfter 0 s = s.phaseAccumulator := by simp [accAfter, u32]

theorem answerAfter_zero (x : Sample) (s : State) :
    answerAfter 0 x s =
      (Response.smp (outputAt s x) (decide (s.blockPos.toNat + 1 = Config.params.blockLen))).word := by
  simp [answerAfter, accAfter_zero]

/-- A running block with room for `n` more samples, both in the phase and in the block. -/
structure HasRoom (n : Nat) (s : State) : Prop where
  block : s.inBlock = true
  tail : s.tail = false
  running : s.state ≠ .idle
  phase : n ≤ s.remaining.toNat
  position : s.blockPos.toNat < Config.params.blockLen
  fits : s.blockPos.toNat + n ≤ Config.params.blockLen

theorem HasRoom.withPort {n : Nat} {s : State} (h : HasRoom n s) (port : List Input) :
    HasRoom n { s with port := port } :=
  ⟨h.block, h.tail, h.running, h.phase, h.position, h.fits⟩

theorem afterSamples_nil {s : State} (h : HasRoom 0 s) : afterSamples [] s.port s = s := by
  obtain ⟨block, -, -, -, position, -⟩ := h
  cases s
  simp_all [afterSamples, accAfter_zero]

section
variable {s : State} (hmore : s.blockPos.toNat + 1 < Config.params.blockLen) (x : Sample)
include hmore

theorem accAfter_sampled (k : Nat) : accAfter k (sampled x s) = accAfter (k + 1) s := by
  rw [sampled_of_not_last hmore]
  simp only [accAfter, advance_phaseAccumulator, advance_phaseIncrement, Nat.add_mul, Nat.one_mul]
  rw [Nat.add_comm (k * _), ← Nat.add_assoc, ← u32_toNat_add (_ + _)]
  simp [u32]

theorem answerAfter_sampled (k : Nat) (y : Sample) : answerAfter k y (sampled x s) = answerAfter (k + 1) y s := by
  rw [answerAfter, accAfter_sampled hmore, sampled_of_not_last hmore, blockPos_succ_toNat hmore,
    Nat.add_right_comm _ 1 k]
  rfl

end

section
variable {n : Nat} {s : State} (h : HasRoom (n + 1) s)
include h

theorem HasRoom.remaining_ne_zero : s.remaining ≠ 0#32 := by
  have := h.phase
  bv_omega

theorem HasRoom.remaining_pred_toNat : (s.remaining - 1#32).toNat = s.remaining.toNat - 1 := by
  have := h.phase
  bv_omega

/-- The last sample of a block ends a run. -/
theorem HasRoom.sampled_eq_afterSamples (x : Sample) (hlast : s.blockPos.toNat + 1 = Config.params.blockLen) :
    sampled x s = afterSamples [x] s.port s := by
  have one_less : s.remaining - 1#32 = BitVec.ofNat 32 (s.remaining.toNat - 1) := by
    rw [← h.remaining_pred_toNat, BitVec.ofNat_toNat, BitVec.setWidth_eq]
  have acc : s.phaseAccumulator + s.phaseIncrement = accAfter 1 s := by
    simp [accAfter, u32, BitVec.ofNat_add]
  simp [sampled_of_last hlast, afterSamples, answerAfter_zero, hlast, one_less, acc, h.tail]

theorem HasRoom.step {x : Sample} {more : List Input} (hport : s.port = .command (encode (.samp x)) :: more) :
    step s = .next (sampled x { s with port := more }) :=
  (step_of_decode_ok hport (decode_encode rfl)).trans
    (exec_samp_of_running x h.block h.tail h.running h.remaining_ne_zero)

variable (hmore : s.blockPos.toNat + 1 < Config.params.blockLen) (x : Sample)
include hmore

/-- Any other sample leaves room for one less. -/
theorem HasRoom.sampled : HasRoom n (sampled x s) := by
  have one_less := h.remaining_pred_toNat
  obtain ⟨block, tail, running, phase, position, fits⟩ := h
  rw [sampled_of_not_last hmore]
  refine ⟨block, tail, running, ?_, ?_, ?_⟩ <;> simp only [advance_remaining, one_less, blockPos_succ_toNat hmore]
  · omega
  · exact hmore
  · omega

/-- What the sample leaves begins the rest of the run. -/
theorem HasRoom.afterSamples_sampled {xs : List Sample} (hn : xs.length = n) (rest : List Input) :
    afterSamples xs rest (Machine.sampled x s) = afterSamples (x :: xs) rest s := by
  have one_less : s.remaining.toNat - 1 - xs.length = s.remaining.toNat - (xs.length + 1) := by omega
  have position : s.blockPos.toNat + 1 + xs.length = s.blockPos.toNat + (xs.length + 1) := by omega
  have not_last : decide (s.blockPos.toNat + 1 = Config.params.blockLen) = false := by simpa using hmore.ne
  simp only [afterSamples, accAfter_sampled hmore, answerAfter_sampled hmore, List.mapIdx_cons,
    answerAfter_zero, not_last, List.length_cons]
  rw [sampled_of_not_last hmore]
  simp only [advance_remaining, h.remaining_pred_toNat, one_less, blockPos_succ_toNat hmore, position,
    List.append_assoc, List.singleton_append]
  rfl

end

theorem run_succ_of_step {M : Host.Core} {s t : M.State} (h : M.step s = .next t) (n : Nat) :
    M.run (n + 1) s = M.run n t := by
  rw [Host.Core.run, h]

/-- By induction on the samples: each is the last of its block, and then the only one left, or leaves room for the
rest. -/
theorem run_samples (xs : List Sample) (rest : List Input) (s : State) (h : HasRoom xs.length s)
    (hport : s.port = xs.map (fun x => Input.command (encode (.samp x))) ++ rest) :
    Sys2Proof.core.run xs.length s = .next (afterSamples xs rest s) := by
  induction xs generalizing s with
  | nil =>
    obtain rfl : s.port = rest := hport
    rw [List.length_nil, afterSamples_nil h]
    rfl
  | cons x xs ih =>
    have room : HasRoom (xs.length + 1) _ := h.withPort (xs.map (fun x => Input.command (encode (.samp x))) ++ rest)
    refine (run_succ_of_step (M := Sys2Proof.core) (h.step hport) xs.length).trans ?_
    obtain hmore | hlast := Nat.lt_or_eq_of_le (Nat.succ_le_of_lt h.position)
    · refine (ih _ (room.sampled hmore x) (sampled_port x _)).trans ?_
      rw [room.afterSamples_sampled hmore x rfl]
      rfl
    · have fits : s.blockPos.toNat + (xs.length + 1) ≤ Config.params.blockLen := h.fits
      obtain rfl : xs = [] := List.eq_nil_of_length_eq_zero (by omega)
      exact congrArg Host.Outcome.next (room.sampled_eq_afterSamples x hlast)

/-! ## The host's `update` (41_phase_accumulator_lut_interp.md R130) -/

theorem sampleCommand_eq {P : Params} {s : State} (h : s.inBlock = true) (x : Sample) :
    sampleCommand P x s =
      respond (.smp (processSample P x s).1 (isLastSample P s)) (countSample P (processSample P x s).2) := by
  rw [sampleCommand_of_block h, isLastSample_processSample]

theorem lastResponse_respond (r : Response) (s : State) : lastResponse (respond r s) = some r := by
  simp [lastResponse, ofWord_word]

theorem writeBack_respond_smp (y x : Sample) (last : Bool) (s : State) :
    writeBack (respond (.smp y last) s) x = y := by
  simp [writeBack, lastResponse_respond]

theorem renderSamples_length (P : Params) (xs : List Sample) (s : State) :
    (renderSamples P xs s).1.length = xs.length := by
  induction xs generalizing s with
  | nil => rfl
  | cons x xs ih => simp [renderSamples, ih]

theorem renderSamples_state (P : Params) (xs : List Sample) (s : State) :
    (renderSamples P xs s).2 = xs.foldl (fun u x => sampleCommand P x u) s := by
  induction xs generalizing s with
  | nil => rfl
  | cons x xs ih => simp [renderSamples, ih]

/-- A closed block, as `update` leaves it (41_phase_accumulator_lut_interp.md R139). -/
def BlockClosed (s : State) : Prop := s.inBlock = false ∧ s.tail = false ∧ s.blockPos = 0#16

section
variable {P : Params} {s : State} (hblock : s.inBlock = true) (x : Sample)
include hblock

theorem sampleCommand_sameErrors : SameErrors s (sampleCommand P x s) := by
  obtain ⟨err_rendered, code_rendered⟩ := processSample_sameErrors P x s
  obtain ⟨err_counted, code_counted⟩ := countSample_sameErrors P (processSample P x s).2
  rw [sampleCommand_eq hblock]
  exact ⟨err_rendered.trans err_counted, code_rendered.trans code_counted⟩

/-- The sample written back is the one answered, with the mark of the last sample of the block. -/
theorem sampleCommand_answer (z : Sample) :
    (sampleCommand P x s).responses = s.responses ++
      [(Response.smp (writeBack (sampleCommand P x s) z) (decide (s.blockPos.toNat + 1 = P.blockLen))).word] := by
  obtain ⟨-, -, -, -, rendered⟩ := processSample_frame P x s
  obtain ⟨-, -, -, counted⟩ := countSample_frame P (processSample P x s).2
  have last : isLastSample P s = decide (s.blockPos.toNat + 1 = P.blockLen) := by
    have := P.blockLen_pos
    rw [isLastSample, decide_eq_decide]
    omega
  rw [sampleCommand_eq hblock, writeBack_respond_smp, respond_responses, counted, rendered, last]

theorem sampleCommand_closes (hlast : s.blockPos.toNat + 1 = P.blockLen) : BlockClosed (sampleCommand P x s) := by
  have last : isLastSample P s = true := (isLastSample_iff P s).2 (by omega)
  rw [sampleCommand_eq hblock, countSample, isLastSample_processSample, if_pos last]
  exact ⟨rfl, rfl, rfl⟩

theorem sampleCommand_counts (hmore : s.blockPos.toNat + 1 < P.blockLen) :
    (sampleCommand P x s).inBlock = true ∧ (sampleCommand P x s).blockPos.toNat = s.blockPos.toNat + 1 := by
  obtain ⟨-, block_kept, pos_kept, -, -⟩ := processSample_frame P x s
  have not_last : ¬ isLastSample P s = true := by
    rw [isLastSample_iff]
    omega
  rw [sampleCommand_eq hblock, countSample, isLastSample_processSample, if_neg not_last]
  exact ⟨block_kept.trans hblock, by simp only [respond_blockPos, pos_kept, blockPos_succ_toNat hmore]⟩

end

/-- The samples that fill the rest of an open block close it without an error, and each is written back as it was
answered. -/
theorem renderSamples_rest_of_block {P : Params} (xs : List Sample) (hne : xs ≠ []) (s : State)
    (hblock : s.inBlock = true) (hlen : s.blockPos.toNat + xs.length = P.blockLen) :
    BlockClosed (renderSamples P xs s).2 ∧ SameErrors s (renderSamples P xs s).2 ∧
      (renderSamples P xs s).2.responses = s.responses ++ (renderSamples P xs s).1.mapIdx fun i y =>
        (Response.smp y (decide (s.blockPos.toNat + i + 1 = P.blockLen))).word := by
  induction xs generalizing s with
  | nil => exact absurd rfl hne
  | cons x xs ih =>
    have answer := sampleCommand_answer (P := P) hblock x x
    obtain ⟨err_kept, code_kept⟩ := sampleCommand_sameErrors (P := P) hblock x
    rw [List.length_cons] at hlen
    by_cases hxs : xs = []
    · subst hxs
      have hlast : s.blockPos.toNat + 1 = P.blockLen := by simpa using hlen
      exact ⟨sampleCommand_closes hblock x hlast, ⟨err_kept, code_kept⟩, by simpa [renderSamples] using answer⟩
    · have more : 0 < xs.length := List.length_pos_iff.2 hxs
      obtain ⟨block_open, pos_next⟩ := sampleCommand_counts hblock x (P := P) (by omega)
      obtain ⟨closed, ⟨err_rest, code_rest⟩, answers⟩ := ih hxs _ block_open (by omega)
      refine ⟨closed, ⟨err_kept.trans err_rest, code_kept.trans code_rest⟩, ?_⟩
      rw [renderSamples, answers, answer, pos_next, List.mapIdx_cons, List.append_assoc, List.singleton_append]
      simp only [Nat.add_zero, Nat.add_assoc, Nat.add_comm 1]

/-! ## The obligations -/

/-- Settles O36: the run of samples, in the numbers of the statement. -/
theorem samplesInsideAPhaseRenderInOrder : Obligations.SamplesInsideAPhaseRenderInOrder :=
  fun xs s rest block tail running phase position fits hport =>
    run_samples xs rest s ⟨block, tail, running, phase, position, fits⟩ hport

/-- Settles O37: in IDLE the block is skipped; otherwise it is opened at position 0, and the buffer fills it. -/
theorem updateRendersOneWholeBlock : Obligations.UpdateRendersOneWholeBlock := by
  intro P buffer s hblock hlen
  have start : blockStart s = respond (.blk (blockActive s)) (openBlock s) := by simp [blockStart, hblock]
  by_cases hidle : s.state = .idle
  · have inactive : blockActive s = false := by simp [blockActive, hidle]
    have skipped : updateBlock P buffer s =
        { state := blockStart s, buffer := buffer, handedDownstream := false } := by
      simp [updateBlock, start, lastResponse_respond, inactive]
    simp [skipped, start, inactive, hidle, SameWorking]
  · have active : blockActive s = true := by simp [blockActive, hidle]
    have rendered : updateBlock P buffer s =
        { state := (renderSamples P buffer (blockStart s)).2
          buffer := (renderSamples P buffer (blockStart s)).1
          handedDownstream := true } := by
      simp [updateBlock, start, lastResponse_respond, active]
    have opened : (blockStart s).responses = s.responses ++ [(Response.blk true).word] := by simp [start, active]
    have nonempty : buffer ≠ [] := List.ne_nil_of_length_pos (hlen ▸ P.blockLen_pos)
    obtain ⟨⟨closed, no_tail, pos⟩, ⟨err_kept, code_kept⟩, answers⟩ :=
      renderSamples_rest_of_block buffer nonempty (blockStart s) (by simp [start, active])
        (by simpa [start] using hlen)
    have length := renderSamples_length P buffer (blockStart s)
    have at_start : (blockStart s).blockPos.toNat = 0 := by simp [start]
    rw [opened, at_start] at answers
    simp only [rendered]
    refine ⟨length, closed, no_tail, pos, err_kept.symm.trans (by simp [start]),
      code_kept.symm.trans (by simp [start]),
      by simp [hidle], ?_, fun _ => ⟨renderSamples_state P buffer _, ?_⟩, fun h => absurd h hidle⟩
    · simp [answers, length, hidle, hlen]
      omega
    · simpa using answers

end Sys2Proof.Machine
end
